-- ==== Sys2Proof/Word.lean ====
section
/-! DEFINITION. The words of the CN20: bytes, identities, epochs, digests, tags, counters. -/

namespace Sys2Proof

/-- One byte on the train bus or at the local port (R173). -/
abbrev Byte := BitVec 8

/-- A station identity, 1..2^32 − 1; 0 stands for no station (R27, R156). -/
abbrev Identity := BitVec 32

/-- An epoch, compared in wrapping arithmetic (R47, R48). -/
abbrev Epoch := BitVec 16

/-- A roster's digest (R108). -/
abbrev Digest := BitVec 32

/-- A roster's consist tag (R109). -/
abbrev Tag := BitVec 16

/-- One of the 16-bit counters (R43, R145). -/
abbrev Counter := BitVec 16

/-- An instant or a duration in chain ticks of 0.25 µs (R1). -/
abbrev Ticks := Nat

end Sys2Proof
end

