-- ==== Sys2Proof/Syntax.lean ====
section
/-! DEFINITION. The commands of the CN20: one constructor for each row of spec/opcode_table.json.
A row of the local port comes as the two ends of its transaction, the fall and the rise of CSN (R149;
log 19). An event carries what tells one occurrence of it from another: the carriage end, the measured
period, the sampled bits, the index of the wire bit, the member, the ticket or the edge of RESETN
(log 27). Where a constructor's operand is not written, it is the plain case: a transaction that ends with
nothing behind the command code, power-on, the own start bit. -/

namespace Sys2Proof

/-- A carriage end, and the letter of a neighbour's end (R9, R22). -/
inductive End where
  | a | b
  deriving DecidableEq, Repr

/-- "The other end" of a carriage (00_scope.md section 7). -/
def End.other : End → End
  | .a => .b
  | .b => .a

/-- What a row of the local port says of its transaction (R149; log 19). -/
inductive Transfer where
  /-- CSN falls: a transaction begins. Which command it will carry is not known yet. -/
  | csnFalls
  /-- CSN rises at the end of a transaction that has carried the row's command code and then these bits on MOSI,
  one for each rising edge of SCK, in the order sampled. -/
  | csnRises (bits : List Bool)
  /-- CSN rises at the end of a status read of `cycles` SCK cycles in all: the transaction has carried no complete
  command code, or one that names no command. -/
  | statusRead (cycles : Nat)
  deriving DecidableEq, Repr

/-- The bits after the command code, where the transaction has ended with one. -/
def Transfer.carried : Transfer → Option (List Bool)
  | .csnRises bits => some bits
  | .csnFalls | .statusRead _ => none

/-- What brings a hardware reset, and what ends it (R165). -/
inductive ResetEdge where
  /-- Power comes on, with RESETN high. -/
  | powerOn
  /-- RESETN falls; the part is held in reset until it rises. -/
  | resetnFalls
  /-- RESETN rises. -/
  | resetnRises
  deriving DecidableEq, Repr

/-- The commands and events of the opcode table. -/
inductive Instr where
  /-- CONFIGURE (R156). -/
  | configure (x : Transfer)
  /-- START (R157). -/
  | start (x : Transfer := .csnRises [])
  /-- RESTART (R158). -/
  | restart (x : Transfer := .csnRises [])
  /-- SET CAB (R159). -/
  | setCab (x : Transfer)
  /-- ISOLATE (R160). -/
  | isolate (x : Transfer)
  /-- RECOMPOSE (R161). -/
  | recompose (x : Transfer := .csnRises [])
  /-- SUBMIT (R126). -/
  | submit (x : Transfer)
  /-- WITHDRAW (R134). -/
  | withdraw (x : Transfer)
  /-- TAKE (R144). -/
  | take (x : Transfer := .csnRises [])
  /-- READ OUTCOMES (R146). -/
  | readOutcomes (x : Transfer := .csnRises [])
  /-- READ ROSTER (R113). -/
  | readRoster (x : Transfer)
  /-- READ STATE (R163). -/
  | readState (x : Transfer := .csnRises [])
  /-- READ EVENTS (R164). -/
  | readEvents (x : Transfer := .csnRises [])
  /-- READ ANSWER (R153). -/
  | readAnswer (x : Transfer)
  /-- A command transaction that ends while the port is busy (R152). -/
  | commandOverrun (x : Transfer := .csnRises [])
  /-- The answer of the executing command is complete (R151). -/
  | answerReady
  /-- Power-on or RESETN (R165). -/
  | hardwareReset (edge : ResetEdge := .powerOn)
  /-- A drive period boundary at an end (R5). -/
  | periodBoundary (e : End)
  /-- A completed sense period of `p` ticks with a high time of `h` ticks (R8, R13). -/
  | completedPeriod (e : End) (p h : Nat)
  /-- 3.0 ms of steady low on the sense pin (R15). -/
  | loss (e : End)
  /-- 2.0 ms of steady high on the sense pin (R16). -/
  | partingSensed (e : End)
  /-- 3.0 s of steady high on the sense pin (R17). -/
  | stuckHigh (e : End)
  /-- The coupler release input of an end rises (R21). -/
  | releaseAsserted (e : End)
  /-- The coupler release input of an end falls (R21). -/
  | releaseDeasserted (e : End)
  /-- The bus is idle (R26, R32). -/
  | busIdle
  /-- The wire bits sampled since the bits already taken of the frame in reception (R36);
  `false` is dominant and `true` recessive. -/
  | frameReceived (bits : List Bool)
  /-- Own recessive wire bit number `bit` reads dominant in the arbitration field (R32). -/
  | lostArbitration (bit : Nat)
  /-- Own dominant wire bit number `bit` reads recessive during arbitration (R32). -/
  | dominantReadRecessive (bit : Nat := 0)
  /-- Own wire bit number `bit`, after the arbitration field, reads back wrong (R34). -/
  | strike (bit : Nat)
  /-- The own frame completes cleanly (R33). -/
  | cleanCompletion
  /-- The 500 ms rest timer expires (R35). -/
  | restTimerExpiry
  /-- The QUIET hold ends (R69). -/
  | quietHoldEnd
  /-- The 80 ms cadence timer expires (R70, R74). -/
  | cadenceTimer
  /-- 160 ms have passed since the instant of last entry (R71). -/
  | lastEntryTimeout
  /-- The 2.0 s round deadline expires (R78). -/
  | roundDeadline
  /-- The 30 s LIMP retry timer expires (R81). -/
  | limpRetry
  /-- A point of the presence schedule is reached (R85). -/
  | presenceSchedulePoint
  /-- A member has not been heard for three presence intervals (R87). -/
  | memberLost (id : Identity)
  /-- A 1.0 s grade window ends (R117). -/
  | windowEnd
  /-- The lifetime of the transmit entry of this ticket runs out (R132). -/
  | lifetimeExpiry (ticket : Nat)
  /-- A dominant level from idle begins another station's frame (R36). -/
  | startBitSeen
  /-- The own intermission has passed on a bus that became idle before (R26). -/
  | intermissionPassed
  deriving DecidableEq, Repr

end Sys2Proof
end

