-- ==== Sys2Proof/Machine/State.lean ====
section
/-! DEFINITION. The state of the CN20, block by block, as plain data; its faults and refusals; and the
state after a hardware reset. -/

namespace Sys2Proof.Machine

/-! ## Values shared by the blocks -/

/-- The four bus grades, G1 the lowest (R25). -/
inductive Grade where
  | g1 | g2 | g3 | g4
  deriving DecidableEq, Repr

/-- The four payload maxima 16, 32, 64 and 128 (R49, R156). -/
inductive PayloadMax where
  | p16 | p32 | p64 | p128
  deriving DecidableEq, Repr

/-- The end states an end reports (R22). -/
inductive EndState where
  | openEnd | held | parting | fault | isolated
  deriving DecidableEq, Repr

/-- The reported triple of an end: end state, count and facing type, `none` for NONE (R22). -/
structure Triple where
  state  : EndState
  count  : Nat
  facing : Option End
  deriving DecidableEq, Repr

/-- What an offer carries of one end: its triple and its saturated mark (R49). -/
structure EndPair where
  report    : Triple
  saturated : Bool
  deriving DecidableEq, Repr

/-- The cab state of an offer (R49). -/
inductive OfferCab where
  | noCab | idle | activeA | activeB
  deriving DecidableEq, Repr

/-- The fields of an offer (R49). -/
structure OfferFields where
  epoch      : Epoch
  endA       : EndPair
  endB       : EndPair
  cab        : OfferCab
  ceiling    : Grade
  payloadMax : PayloadMax
  deriving DecidableEq, Repr

/-- The fields an offer carries of end `e`. -/
def OfferFields.pair (o : OfferFields) : End → EndPair
  | .a => o.endA
  | .b => o.endB

/-- The three composition frames (R49, R51, R52). -/
inductive CompFrame where
  | offer (o : OfferFields)
  | confirm (epoch : Epoch) (digest : Digest) (position : Nat)
  | presence (epoch : Epoch) (digest : Digest)
  deriving DecidableEq, Repr

/-- A bus frame without its framing: class, source identity, body grade and body bytes (R27). -/
structure Frame where
  cls    : Nat
  source : Identity
  grade  : Grade
  body   : List Byte
  deriving DecidableEq, Repr

/-! ## Chain units -/

/-- The decoder states (R12 to R20). -/
inductive DecState where
  | openLine | acquiring | held | parting | fault | isolated
  deriving DecidableEq, Repr

/-- Why a decoder is in FAULT (R14, R17). -/
inductive FaultReason where
  | unclear | stuckHigh
  deriving DecidableEq, Repr

/-- A candidate, and a held value: the period class, which is the neighbour's end letter, and the code
(R10, R19). -/
structure Candidate where
  cls  : End
  code : Nat
  deriving DecidableEq, Repr

/-- A measurement: the rising edge that began the period and, once seen, its falling edge (R8; log 23). -/
structure Measurement where
  rise : Ticks
  fall : Option Ticks
  deriving DecidableEq, Repr

/-- A sense decoder (section 1.4). -/
structure Decoder where
  state     : DecState
  held      : Option Candidate
  cand      : Option Candidate
  run       : Nat
  unclear   : Nat
  fault     : Option FaultReason
  measure   : Option Measurement
  /-- The earliest instant at which the level interval of the sense pin that is judged next can have begun:
  the latest rising edge, loss, parting, stuck high, START or lifting of isolation (R1, R15 to R18, R20;
  log 23). -/
  levelFrom : Ticks
  /-- The rising edge of the high interval in which parting has been sensed, until stuck high or the next
  rising edge (R16 to R18). -/
  highFrom  : Option Ticks
  deriving DecidableEq, Repr

/-- A drive generator (R3 to R5). -/
structure Drive where
  pending    : Nat
  loaded     : Nat
  saturated  : Bool
  /-- The instant at which the step count was 0; `none` while a drive condition stops it (R6). -/
  periodFrom : Option Ticks
  deriving DecidableEq, Repr

/-- A chain unit: decoder, drive generator and coupler release input of one end. Isolation is the
decoder's ISOLATED state (R20). -/
structure ChainUnit where
  dec     : Decoder
  drv     : Drive
  release : Bool
  deriving DecidableEq, Repr

/-! ## Bus controller -/

/-- The six controller states (R42). -/
inductive Ctrl where
  | off | listening | transmitting | receiving | resting | silenced
  deriving DecidableEq, Repr

/-- The nine bus counters (R43). -/
structure Counters where
  format     : Counter
  crc        : Counter
  stuff      : Counter
  truncation : Counter
  gradeSkip  : Counter
  stranger   : Counter
  stale      : Counter
  foreign    : Counter
  overrun    : Counter
  deriving DecidableEq, Repr

/-- Where an own frame came from: the composition slot, or the transmit entry of a ticket together with
the position its wire destination names (R33, R131). -/
inductive Origin where
  | comp (f : CompFrame)
  | cargo (ticket : Nat) (finalPos : Option Nat)
  deriving DecidableEq, Repr

/-- An own frame in transmission (R33). -/
structure Tx where
  frame  : Frame
  origin : Origin
  deriving DecidableEq, Repr

/-- A reception in progress (R36): the level and length of the present run of equal wire bits, the
unstuffed bits taken after the start bit (latest first), the end-field bits read, and whether six
recessive bits in a row wait for judgement (R38); for the idle count (R26), the duration of the recessive
bits that the bus has shown in a row, and the bit time of the latest bit. -/
structure Rx where
  last      : Bool
  run       : Nat
  taken     : List Bool
  endBits   : Nat
  waiting   : Bool
  recessive : Ticks
  bitTime   : Ticks
  deriving DecidableEq, Repr

/-- The frame selected at an idle: the slot's, or the head candidate of a ticket (R31, R129). -/
inductive Selection where
  | comp
  | cargo (ticket : Nat)
  deriving DecidableEq, Repr

/-- The bus controller (chapter 2). -/
structure Bus where
  ctrl            : Ctrl
  idle            : Bool
  idleDue         : Option Ticks
  intermissionEnd : Option Ticks
  selected        : Option Selection
  slot            : Option CompFrame
  tx              : Option Tx
  rx              : Option Rx
  strikes         : Nat
  latestRest      : Option Ticks
  restDue         : Option Ticks
  firstClash      : Option Ticks
  cargoGrade      : Grade
  counters        : Counters
  deriving DecidableEq, Repr

/-! ## Composition engine -/

/-- The composition states (section 4.1). -/
inductive CompState where
  | idle | quiet | offer | confirm | settled | limp | halted
  deriving DecidableEq, Repr

/-- The trigger reasons, and NONE (section 4.2). -/
inductive Reason where
  | noReason | chain | parting | cab | ceiling | command | clash | start | limpRetry | memberLost
  | digestMismatch | strangerOffer | roundFailed | newerEpoch
  deriving DecidableEq, Repr

/-- The kind of round running (R63). -/
inductive RoundKind where
  | noRound | foreground | background
  deriving DecidableEq, Repr

/-- An entry of the heard table (R56). -/
structure HeardEntry where
  id        : Identity
  offer     : OfferFields
  confirmed : Option Digest
  deriving DecidableEq, Repr

/-- The result of taking an offer into the heard table (R58). -/
inductive TableResult where
  | new | changed | same | notStored
  deriving DecidableEq, Repr

/-- FORWARD or REVERSED (R104). -/
inductive Orientation where
  | forward | reversed
  deriving DecidableEq, Repr

/-- The cab field of a roster entry (R104). -/
inductive CabField where
  | noCab | idle | active | overruled
  deriving DecidableEq, Repr

/-- A roster entry (R106). -/
inductive RosterEntry where
  | silent
  | heard (id : Identity) (orientation : Orientation) (cab : CabField) (ceiling : Grade)
      (payloadMax : PayloadMax)
  deriving DecidableEq, Repr

/-- The status of a roster (R105). -/
inductive Status where
  | complete | partialRoster | limp
  deriving DecidableEq, Repr

/-- A roster (R105); its length and its consist tag are computed from it. -/
structure Roster where
  epoch        : Epoch
  digest       : Digest
  ownPos       : Nat
  status       : Status
  jointGrade   : Grade
  jointPayload : PayloadMax
  cabConflict  : Bool
  noCab        : Bool
  split        : Bool
  entries      : List RosterEntry
  deriving DecidableEq, Repr

/-- A watched member and the instant at which it was last heard (R87). -/
structure Watched where
  id    : Identity
  heard : Ticks
  deriving DecidableEq, Repr

/-- The composition engine (chapters 3 to 5). -/
structure Comp where
  state         : CompState
  epoch         : Epoch
  reason        : Reason
  failed        : Nat
  disagreements : Nat
  ownSent       : Nat
  offerDone     : Bool
  table         : List HeardEntry
  overflow      : Bool
  lastEntry     : Option Ticks
  holdDue       : Option Ticks
  cadenceDue    : Option Ticks
  deadlineDue   : Option Ticks
  retryDue      : Option Ticks
  /-- The instant at which a trigger taken in LIMP has stopped the LIMP retry timer although its expiry falls on
  that instant too; that expiry is still to be taken (R81). -/
  retryFell     : Option Ticks
  presenceDue   : Option Ticks
  watch         : List Watched
  pendingRoster : Option Roster
  current       : Option Roster
  previous      : Option Roster
  deriving DecidableEq, Repr

/-! ## Cargo router -/

/-- Destination mode and value of a transmit entry; a POSITION entry is bound or unbound (R125). -/
inductive Dest where
  | position (p : Nat) (bound : Bool)
  | identity (id : Identity)
  | leading
  | trailing
  | all
  deriving DecidableEq, Repr

/-- A transmit entry (R125). -/
structure TxEntry where
  ticket     : Nat
  dest       : Dest
  urgent     : Bool
  expiry     : Option Ticks
  payload    : List Byte
  attempts   : Nat
  inFlight   : Bool
  lapsed     : Bool
  renameOwed : Bool
  deriving DecidableEq, Repr

/-- The wire destination modes (R130, section 10.2.2). -/
inductive WireMode where
  | position | identity | all
  deriving DecidableEq, Repr

/-- A receive entry (R143). -/
structure RxEntry where
  source    : Identity
  sourcePos : Nat
  mode      : WireMode
  renamed   : Bool
  grade     : Grade
  payload   : List Byte
  deriving DecidableEq, Repr

/-- The kinds of outcome (R145). -/
inductive OutcomeKind where
  | sent | expired | withdrawn | departed | unresolved | oversize | busFailure | flushed
  deriving DecidableEq, Repr

/-- An outcome record (R145). -/
structure OutcomeRecord where
  ticket   : Nat
  kind     : OutcomeKind
  finalPos : Option Nat
  deriving DecidableEq, Repr

/-- The cargo router (chapter 7). -/
structure Cargo where
  queue       : List TxEntry
  received    : List RxEntry
  outcomes    : List OutcomeRecord
  lastTicket  : Nat
  outcomeLoss : Counter
  deriving DecidableEq, Repr

/-! ## Grade monitor and local port -/

/-- The grade monitor (R114). -/
structure GradeMonitor where
  ceiling   : Grade
  limit     : Grade
  errors    : Nat
  upRun     : Nat
  windowDue : Option Ticks
  deriving DecidableEq, Repr

/-- The part states (R155). -/
inductive PartState where
  | unconfigured | running | silenced
  deriving DecidableEq, Repr

/-- The cab ends fitted (R156). -/
inductive CabEnds where
  | neither | onlyA | onlyB | both
  deriving DecidableEq, Repr

/-- The cab setting (R159). -/
inductive CabSetting where
  | inactive | activeA | activeB
  deriving DecidableEq, Repr

/-- The configuration image, but for the routing mask, which has a value without it (R156). -/
structure Image where
  identity   : Identity
  /-- Bit n − 1 for Gn (section 10.3.2). -/
  permitted  : BitVec 4
  payloadMax : PayloadMax
  /-- The confirmation count as taken, 2..8 (R11). -/
  k          : Nat
  cabEnds    : CabEnds
  deriving DecidableEq, Repr

/-- The local port (chapters 8 and 9). -/
structure Port where
  part        : PartState
  image       : Option Image
  mask        : BitVec 15
  cab         : CabSetting
  answer      : Option (List Byte)
  answerReady : Bool
  busy        : Bool
  overrun     : Bool
  flags       : BitVec 15
  /-- The status byte captured when CSN fell, while a transaction is in progress (R149, R150). -/
  csn         : Option Byte
  /-- RESETN is held low (R165). -/
  inReset     : Bool
  /-- The model's own record: the bits clocked out in the latest transaction (log 19). -/
  miso        : List Bool
  deriving DecidableEq, Repr

/-! ## The part -/

/-- The whole state of the part, and the queue of commands and events waiting to be taken. -/
structure State where
  now     : Ticks
  chainA  : ChainUnit
  chainB  : ChainUnit
  bus     : Bus
  comp    : Comp
  cargo   : Cargo
  grade   : GradeMonitor
  port    : Port
  pending : List Instr
  deriving DecidableEq, Repr

/-- No command of the block stops the machine with a fault: trouble is an answer, a notice, a counter or
a stop into SILENCED, each an effect on the state (R154, R167, R171). The type has no constructor, so
that no meaning can raise one; that is safe, since the spec names no fault that ends a run. -/
inductive Fault where
  deriving DecidableEq, Repr

/-- Why a command has no meaning. -/
inductive Refusal where
  /-- Raised by an arm of exec alone, for a row of the opcode table that has no meaning yet; safe. No arm
  raises it now. -/
  | notModelled (mnemonic : String)
  deriving DecidableEq, Repr

/-- A decoder after a hardware reset (R24), its durations counted from `t`. -/
def Decoder.fresh (t : Ticks) : Decoder :=
  { state := .openLine, held := none, cand := none, run := 0, unclear := 0, fault := none
    measure := none, levelFrom := t, highFrom := none }

/-- A drive generator after a hardware reset (R7). -/
def Drive.fresh : Drive :=
  { pending := 1, loaded := 1, saturated := false, periodFrom := none }

/-- A chain unit after a hardware reset with its release input at `release` (R7, R24). -/
def ChainUnit.fresh (release : Bool) : ChainUnit :=
  { dec := .fresh 0, drv := .fresh, release := release }

/-- The counters after a hardware reset (R43). -/
def Counters.zero : Counters :=
  { format := 0, crc := 0, stuff := 0, truncation := 0, gradeSkip := 0, stranger := 0, stale := 0
    foreign := 0, overrun := 0 }

/-- The bus controller after a hardware reset (R46). -/
def Bus.reset : Bus :=
  { ctrl := .off, idle := false, idleDue := none, intermissionEnd := none, selected := none
    slot := none, tx := none, rx := none, strikes := 0, latestRest := none, restDue := none
    firstClash := none, cargoGrade := .g1, counters := .zero }

/-- The composition engine after a hardware reset (R61, R90). -/
def Comp.reset : Comp :=
  { state := .idle, epoch := 0, reason := .noReason, failed := 0, disagreements := 0, ownSent := 0
    offerDone := false, table := [], overflow := false, lastEntry := none, holdDue := none
    cadenceDue := none, deadlineDue := none, retryDue := none, retryFell := none
    presenceDue := none, watch := []
    pendingRoster := none, current := none, previous := none }

/-- The cargo router after a hardware reset (R147). -/
def Cargo.reset : Cargo :=
  { queue := [], received := [], outcomes := [], lastTicket := 255, outcomeLoss := 0 }

/-- The grade monitor after a hardware reset (R122). -/
def GradeMonitor.reset : GradeMonitor :=
  { ceiling := .g1, limit := .g1, errors := 0, upRun := 0, windowDue := none }

/-- The local port after a hardware reset (R165). -/
def Port.reset : Port :=
  { part := .unconfigured, image := none, mask := 0, cab := .inactive, answer := none
    answerReady := false, busy := false, overrun := false, flags := 0, csn := none, inReset := false
    miso := [] }

/-- The part right after power-on (R165 and the reset tables of every chapter), with both release inputs
low (DESIGN CHOICE, log 5), the clock at 0 (DESIGN CHOICE, log 6), the bus not idle (DESIGN CHOICE, log 34) and
no command waiting. -/
def State.reset : State :=
  { now := 0, chainA := .fresh false, chainB := .fresh false, bus := .reset, comp := .reset
    cargo := .reset, grade := .reset, port := .reset, pending := [] }

/-- The chain unit of end `e`. -/
def State.chain (s : State) : End → ChainUnit
  | .a => s.chainA
  | .b => s.chainB

/-- The state with chain unit `u` at end `e`. -/
def State.setChain (s : State) (e : End) (u : ChainUnit) : State :=
  match e with
  | .a => { s with chainA := u }
  | .b => { s with chainB := u }

/-- The state with another clock. -/
def State.setNow (s : State) (t : Ticks) : State := { s with now := t }

/-- The state with another bus controller. -/
def State.setBus (s : State) (b : Bus) : State := { s with bus := b }

/-- The state with another composition engine. -/
def State.setComp (s : State) (c : Comp) : State := { s with comp := c }

/-- The state with another cargo router. -/
def State.setCargo (s : State) (c : Cargo) : State := { s with cargo := c }

/-- The state with another grade monitor. -/
def State.setGrade (s : State) (g : GradeMonitor) : State := { s with grade := g }

/-- The state with another local port. -/
def State.setPort (s : State) (p : Port) : State := { s with port := p }

end Sys2Proof.Machine
end

