-- ==== Sys2Proof/Machine/Operands.lean ====
section
/-! DEFINITION. Bytes, bits and codes: the byte order of fields (R173) and the codes of the tables of
chapter 10, in both directions. -/

namespace Sys2Proof.Machine

/-! ## Byte and bit order -/

/-- Two bytes, most significant first (R173). -/
def bytes16 (x : BitVec 16) : List Byte := [x.extractLsb' 8 8, x.extractLsb' 0 8]

/-- Four bytes, most significant first (R173). -/
def bytes32 (x : BitVec 32) : List Byte :=
  [x.extractLsb' 24 8, x.extractLsb' 16 8, x.extractLsb' 8 8, x.extractLsb' 0 8]

/-- The 16-bit field of two bytes. -/
def word16 (b0 b1 : Byte) : BitVec 16 := b0 ++ b1

/-- The 32-bit field of four bytes. -/
def word32 (b0 b1 b2 b3 : Byte) : BitVec 32 := b0 ++ b1 ++ b2 ++ b3

/-- A number in 0..255 as a byte. -/
def byteOf (n : Nat) : Byte := BitVec.ofNat 8 n

/-- One bit as a byte's bit `i`. -/
def bitAt (b : Bool) (i : Nat) : Byte := if b then 1#8 <<< i else 0#8

/-- The `width` bits of a number, most significant first (R173). -/
def bitsOf : (width : Nat) → Nat → List Bool
  | 0, _ => []
  | w + 1, n => n.testBit w :: bitsOf w n

/-- The number of a list of bits, most significant first. -/
def numOf (bits : List Bool) : Nat := bits.foldl (fun n b => 2 * n + b.toNat) 0

/-- Bytes as bits, each most significant bit first (R173). -/
def bitsOfBytes (body : List Byte) : List Bool := body.flatMap (fun b => bitsOf 8 b.toNat)

/-- `n` bytes read from bits. -/
def bytesOfBits : (n : Nat) → List Bool → List Byte
  | 0, _ => []
  | n + 1, bits => byteOf (numOf (bits.take 8)) :: bytesOfBits n (bits.drop 8)

/-! ## Grades and payload maxima -/

/-- The grade code, 0 for G1 to 3 for G4 (R173). -/
def Grade.code : Grade → Nat
  | .g1 => 0
  | .g2 => 1
  | .g3 => 2
  | .g4 => 3

/-- The grade of a two-bit code; every code names one (R30). -/
def Grade.ofCode (n : Nat) : Grade :=
  match n with
  | 0 => .g1
  | 1 => .g2
  | 2 => .g3
  | _ => .g4

/-- The lower of two grades. -/
def Grade.min (g h : Grade) : Grade := if g.code ≤ h.code then g else h

/-- One grade down, not below G1. -/
def Grade.down : Grade → Grade
  | .g1 => .g1
  | .g2 => .g1
  | .g3 => .g2
  | .g4 => .g3

/-- One grade up, not above G4. -/
def Grade.up : Grade → Grade
  | .g1 => .g2
  | .g2 => .g3
  | .g3 => .g4
  | .g4 => .g4

/-- The bit time of a grade in chain ticks (R25). -/
def Grade.bitTime : Grade → Ticks
  | .g1 => 32
  | .g2 => 8
  | .g3 => 4
  | .g4 => 2

/-- Whether a permitted set, bit n − 1 for Gn, holds a grade; it always holds G1 (R37, R156). -/
def permits (set : BitVec 4) (g : Grade) : Bool := g = .g1 || set.getLsbD g.code

/-- The ceiling limit of a permitted set: the highest grade with every grade from G1 to it in the set
(R114). -/
def ceilingLimit (set : BitVec 4) : Grade :=
  if !set.getLsbD 1 then .g1
  else if !set.getLsbD 2 then .g2
  else if !set.getLsbD 3 then .g3
  else .g4

/-- The payload maximum in bytes. -/
def PayloadMax.bytes : PayloadMax → Nat
  | .p16 => 16
  | .p32 => 32
  | .p64 => 64
  | .p128 => 128

/-- The payload code (R173). -/
def PayloadMax.code : PayloadMax → Nat
  | .p16 => 0
  | .p32 => 1
  | .p64 => 2
  | .p128 => 3

/-- The payload maximum of a code; codes above 3 name none (R173). -/
def PayloadMax.ofCode? (n : Nat) : Option PayloadMax :=
  match n with
  | 0 => some .p16
  | 1 => some .p32
  | 2 => some .p64
  | 3 => some .p128
  | _ => none

/-- The smaller of two payload maxima. -/
def PayloadMax.min (p q : PayloadMax) : PayloadMax := if p.code ≤ q.code then p else q

/-! ## Codes of the composition bodies (section 10.2.1) -/

/-- The end-state code. -/
def EndState.code : EndState → Nat
  | .openEnd => 0
  | .held => 1
  | .parting => 2
  | .fault => 3
  | .isolated => 4

/-- The end state of a code; codes above 4 name none. -/
def EndState.ofCode? (n : Nat) : Option EndState :=
  match n with
  | 0 => some .openEnd
  | 1 => some .held
  | 2 => some .parting
  | 3 => some .fault
  | 4 => some .isolated
  | _ => none

/-- The facing-type code. -/
def facingCode : Option End → Nat
  | none => 0
  | some .a => 1
  | some .b => 2

/-- The facing type of a code: the outer `none` is a code that names no facing type. -/
def facingOfCode? (n : Nat) : Option (Option End) :=
  match n with
  | 0 => some none
  | 1 => some (some .a)
  | 2 => some (some .b)
  | _ => none

/-- The cab-state code of an offer. -/
def OfferCab.code : OfferCab → Nat
  | .noCab => 0
  | .idle => 1
  | .activeA => 2
  | .activeB => 3

/-- The cab state of a two-bit code. -/
def OfferCab.ofCode (n : Nat) : OfferCab :=
  match n with
  | 0 => .noCab
  | 1 => .idle
  | 2 => .activeA
  | _ => .activeB

/-- The two bytes of an end pair. -/
def EndPair.bytes (p : EndPair) : List Byte :=
  [byteOf p.report.state.code,
   bitAt p.saturated 7 ||| byteOf (32 * facingCode p.report.facing + p.report.count % 32)]

/-- The end pair of two bytes; `none` where a 0 bit is 1, a code names nothing or a count exceeds 16
(R174). -/
def EndPair.ofBytes? (b0 b1 : Byte) : Option EndPair :=
  if b0.toNat ≥ 8 then none
  else
    match EndState.ofCode? b0.toNat, facingOfCode? (b1.toNat / 32 % 4) with
    | some st, some f =>
      if b1.toNat % 32 ≤ 16 then some ⟨⟨st, b1.toNat % 32, f⟩, b1.getLsbD 7⟩ else none
    | _, _ => none

/-- A triple that some end can report (R53). -/
def Triple.reportable (t : Triple) : Bool :=
  match t.state with
  | .held => 1 ≤ t.count && t.count ≤ 16 && t.facing.isSome
  | .openEnd | .parting | .fault | .isolated => t.count = 0 && t.facing = none

/-- An offer's fields are well-formed: each triple is one that some end can report, and a saturated mark
stands on one end only when the other end reports 16 (R53). -/
def OfferFields.wellFormed (o : OfferFields) : Bool :=
  o.endA.report.reportable && o.endB.report.reportable &&
  (!o.endA.saturated || o.endB.report.count = 16) &&
  (!o.endB.saturated || o.endA.report.count = 16)

/-- The body bytes of a composition frame (R174). -/
def CompFrame.body : CompFrame → List Byte
  | .offer o =>
    bytes16 o.epoch ++ o.endA.bytes ++ o.endB.bytes ++
      [byteOf (16 * o.ceiling.code + 4 * o.payloadMax.code + o.cab.code)]
  | .confirm e d p => bytes16 e ++ bytes32 d ++ [byteOf p]
  | .presence e d => bytes16 e ++ bytes32 d

/-- The class of a composition frame (R30). -/
def CompFrame.cls : CompFrame → Nat
  | .confirm .. => 1
  | .offer .. => 2
  | .presence .. => 3

/-- The epoch a composition frame was built with (R33). -/
def CompFrame.epoch : CompFrame → Epoch
  | .offer o => o.epoch
  | .confirm e _ _ => e
  | .presence e _ => e

/-- The body of an offer, or `none` where it is malformed (R53, R174). -/
def offerOfBody? (body : List Byte) : Option OfferFields :=
  match body with
  | [e0, e1, a0, a1, b0, b1, st] =>
    match EndPair.ofBytes? a0 a1, EndPair.ofBytes? b0 b1, PayloadMax.ofCode? (st.toNat / 4 % 4) with
    | some pa, some pb, some pm =>
      if st.toNat ≥ 64 then none
      else
        let o : OfferFields :=
          { epoch := word16 e0 e1, endA := pa, endB := pb, cab := OfferCab.ofCode (st.toNat % 4)
            ceiling := Grade.ofCode (st.toNat / 16), payloadMax := pm }
        if o.wellFormed then some o else none
    | _, _, _ => none
  | _ => none

/-- The composition frame of a class and a body, or `none` where it is malformed (R53, R174). -/
def compFrameOfBody? (cls : Nat) (body : List Byte) : Option CompFrame :=
  match cls, body with
  | 1, [e0, e1, d0, d1, d2, d3, p] =>
    if 1 ≤ p.toNat ∧ p.toNat ≤ 16 then
      some (.confirm (word16 e0 e1) (word32 d0 d1 d2 d3) p.toNat)
    else none
  | 2, _ => (offerOfBody? body).map .offer
  | 3, [e0, e1, d0, d1, d2, d3] => some (.presence (word16 e0 e1) (word32 d0 d1 d2 d3))
  | _, _ => none

/-! ## Codes of the local port (section 10.3) -/

/-- The part-state code. -/
def PartState.code : PartState → Nat
  | .unconfigured => 0
  | .running => 1
  | .silenced => 2

/-- The cab ends of a code; codes above 3 name none. -/
def CabEnds.ofCode? (n : Nat) : Option CabEnds :=
  match n with
  | 0 => some .neither
  | 1 => some .onlyA
  | 2 => some .onlyB
  | 3 => some .both
  | _ => none

/-- The cab-ends code. -/
def CabEnds.code : CabEnds → Nat
  | .neither => 0
  | .onlyA => 1
  | .onlyB => 2
  | .both => 3

/-- Whether a cab is fitted at an end. -/
def CabEnds.fits : CabEnds → End → Bool
  | .neither, _ => false
  | .onlyA, e => e = .a
  | .onlyB, e => e = .b
  | .both, _ => true

/-- The cab setting of a code; codes above 2 name none (R159). -/
def CabSetting.ofCode? (n : Nat) : Option CabSetting :=
  match n with
  | 0 => some .inactive
  | 1 => some .activeA
  | 2 => some .activeB
  | _ => none

/-- The cab-setting code. -/
def CabSetting.code : CabSetting → Nat
  | .inactive => 0
  | .activeA => 1
  | .activeB => 2

/-- The cab end a setting makes active, which must be fitted (R159). -/
def CabSetting.activeEnd : CabSetting → Option End
  | .inactive => none
  | .activeA => some .a
  | .activeB => some .b

/-- K as taken from its field (R11). -/
def kOfField (n : Nat) : Nat :=
  if n = 0 then 3 else if n = 1 then 2 else if n ≤ 8 then n else 8

/-- The answer codes (R154, section 10.3.1). -/
inductive Answer where
  | done | notNow | badParameter | queueFull | empty | notFound | tooLate | tooLong | noAnswer
  deriving DecidableEq, Repr

/-- The value of an answer code. -/
def Answer.byte : Answer → Byte
  | .done => 0x00#8
  | .notNow => 0x01#8
  | .badParameter => 0x02#8
  | .queueFull => 0x03#8
  | .empty => 0x04#8
  | .notFound => 0x05#8
  | .tooLate => 0x06#8
  | .tooLong => 0x07#8
  | .noAnswer => 0xFF#8

/-- The decoder-state code of READ STATE. -/
def DecState.code : DecState → Nat
  | .openLine => 0
  | .acquiring => 1
  | .held => 2
  | .parting => 3
  | .fault => 4
  | .isolated => 5

/-- The fault-reason code of READ STATE. -/
def faultCode : Option FaultReason → Nat
  | none => 0
  | some .unclear => 1
  | some .stuckHigh => 2

/-- The composition-state code of READ STATE. -/
def CompState.code : CompState → Nat
  | .idle => 0
  | .quiet => 1
  | .offer => 2
  | .confirm => 3
  | .settled => 4
  | .limp => 5
  | .halted => 6

/-- The round-kind code of READ STATE. -/
def RoundKind.code : RoundKind → Nat
  | .noRound => 0
  | .foreground => 1
  | .background => 2

/-- The trigger-reason code of READ STATE. -/
def Reason.code : Reason → Nat
  | .noReason => 0
  | .chain => 1
  | .parting => 2
  | .cab => 3
  | .ceiling => 4
  | .command => 5
  | .clash => 6
  | .start => 7
  | .limpRetry => 8
  | .memberLost => 9
  | .digestMismatch => 10
  | .strangerOffer => 11
  | .roundFailed => 12
  | .newerEpoch => 13

/-- The bus-controller-state code of READ STATE. -/
def Ctrl.code : Ctrl → Nat
  | .off => 0
  | .listening => 1
  | .transmitting => 2
  | .receiving => 3
  | .resting => 4
  | .silenced => 5

/-- The cab code of a roster entry (R108). -/
def CabField.code : CabField → Nat
  | .noCab => 0
  | .idle => 1
  | .active => 2
  | .overruled => 3

/-- The orientation bit, 1 for REVERSED (R108). -/
def Orientation.bit : Orientation → Bool
  | .forward => false
  | .reversed => true

/-- The status code of a roster header (section 10.3.3). -/
def Status.code : Status → Nat
  | .complete => 0
  | .partialRoster => 1
  | .limp => 2

/-- The wire destination mode code (section 10.2.2). -/
def WireMode.code : WireMode → Nat
  | .position => 0
  | .identity => 1
  | .all => 2

/-- The outcome-kind code (section 10.3.3). -/
def OutcomeKind.code : OutcomeKind → Nat
  | .sent => 0
  | .expired => 1
  | .withdrawn => 2
  | .departed => 3
  | .unresolved => 4
  | .oversize => 5
  | .busFailure => 6
  | .flushed => 7

end Sys2Proof.Machine
end

