-- ==== Sys2Proof/Decode.lean ====
section
/-! DEFINITION. From words and bytes to commands. No row of spec/opcode_table.json gives bits, so no
numbered word spells a command (log 29). The command codes of the SPI transactions (section 10.3.1)
do: `decodeTransaction` reads them. -/

namespace Sys2Proof

/-- The table gives no row any bits: no word spells a command (log 29). -/
def decodeTableWord (_nbits _w : Nat) : Option Instr := none

/-- The row of the local port that a command code names (section 10.3.1), if any. -/
def rowOfCode (code : Byte) : Option (Transfer → Instr) :=
  if code = 0x10#8 then some (.configure ·)
  else if code = 0x11#8 then some (.start ·)
  else if code = 0x12#8 then some (.restart ·)
  else if code = 0x20#8 then some (.setCab ·)
  else if code = 0x21#8 then some (.isolate ·)
  else if code = 0x22#8 then some (.recompose ·)
  else if code = 0x30#8 then some (.submit ·)
  else if code = 0x31#8 then some (.withdraw ·)
  else if code = 0x32#8 then some (.take ·)
  else if code = 0x33#8 then some (.readOutcomes ·)
  else if code = 0x40#8 then some (.readRoster ·)
  else if code = 0x41#8 then some (.readState ·)
  else if code = 0x42#8 then some (.readEvents ·)
  else if code = 0x5A#8 then some (.readAnswer ·)
  else none

/-- The whole bytes of some MOSI bits: each byte comes most significant bit first, and the bits of an incomplete
last byte are discarded (R149, R173). -/
def wholeBytes (mosi : List Bool) : List Byte := Machine.bytesOfBits (mosi.length / 8) mosi

/-- The command that a transaction's MOSI bits carry (R149): the first byte is the command code, and the bits
behind it are what follows it. `none` is a status read: no complete code, or one that names no command. -/
def decodeTransaction (mosi : List Bool) : Option Instr :=
  match wholeBytes mosi with
  | [] => none
  | code :: _ => (rowOfCode code).map fun row => row (.csnRises (mosi.drop 8))

/-- The two events of a transaction with nothing between them: the fall of CSN, and the rise that takes the
command or ends a status read (R149). -/
def transactionEvents (mosi : List Bool) : List Instr :=
  let row := ((wholeBytes mosi).head?.bind rowOfCode).getD .readAnswer
  [row .csnFalls, (decodeTransaction mosi).getD (row (.statusRead mosi.length))]

end Sys2Proof
end

