-- ==== Sys2Proof/Config.lean ====
section
/-! DEFINITION. The durations the spec fixes, in chain ticks, and the values it leaves open. -/

namespace Sys2Proof.Config

/-- Milliseconds in chain ticks of 0.25 µs (R1). -/
def ms (n : Nat) : Ticks := 4000 * n

/-- Sense pin steadily high: parting sensed, 2.0 ms (R1). -/
def partingTime : Ticks := 8000

/-- Sense pin steadily low: loss, 3.0 ms (R1). -/
def lossTime : Ticks := 12000

/-- Sense pin steadily high: stuck high, 3.0 s (R1). -/
def stuckTime : Ticks := 12000000

/-- The chain step W of 40 µs (R1). -/
def chainStep : Ticks := 160

/-- One G1 bit time of 8 µs (R25). -/
def g1Bit : Ticks := 32

/-- From a bit's sample point to its end at G1: a quarter of the bit (R25). -/
def g1AfterSample : Ticks := 8

/-- Idle after 11 G1 bit times, 88 µs (R26). -/
def idleTime : Ticks := 11 * g1Bit

/-- The rest timer, 500 ms (R35). -/
def restTime : Ticks := ms 500

/-- The window of 10 s of the rest history and of the clash record (R35, R40). -/
def escalationWindow : Ticks := ms 10000

/-- The QUIET hold, 80 ms (R69). -/
def quietHold : Ticks := ms 80

/-- The cadence of offers and confirms, 80 ms (R70, R74). -/
def cadence : Ticks := ms 80

/-- The time without a new identity after which placement is attempted, 160 ms (R71). -/
def lastEntryTime : Ticks := ms 160

/-- The round deadline, 2.0 s (R78). -/
def roundDeadline : Ticks := ms 2000

/-- The LIMP retry timer, 30 s (R81). -/
def limpRetry : Ticks := ms 30000

/-- The stagger of first presence points, 4 ms for each position (R85). -/
def presenceStagger : Ticks := ms 4

/-- A grade window, 1.0 s (R116). -/
def window : Ticks := ms 1000

/-- One unit of a cargo lifetime, 10 ms (R132). -/
def lifetimeUnit : Ticks := ms 10

/-- FREE VALUE (log 16). Limp placement drops the matches of a walk step and starts again (R110); the
spec gives no order of the walks, so where walks meet different sets of matches, which set goes
first is open. The argument lists the sets, each by its identities. -/
opaque limpConflictChoice : List (List Identity) → Nat

/-- FREE VALUE (log 17). R97 speaks of the closed walk on which the own entry stands. Where closed walks that all
pass their mirror checks give different runs with it, which one counts is open, and so is, in limp placement, whose
unmatched entries are dropped first where several checks fail over different entries (R110). The argument lists the walks by the identities
they place. -/
opaque ownWalkChoice : List (List Identity) → Nat

end Sys2Proof.Config
end

