-- ==== Sys2Proof/Machine/Flags.lean ====
section
/-! DEFINITION. The event flags, the routing mask and INTN (chapter 9). -/

namespace Sys2Proof.Machine

/-- The fifteen notice kinds (R167). -/
inductive Notice where
  | adopted | limp | chain | parting | fault | cargo | outcome | grade | clash | resting
  | cabConflict | rxLost | outcomeLost | restarted | silenced
  deriving DecidableEq, Repr

/-- The bit of a notice kind in the notice mask (section 10.3.1). -/
def Notice.bit : Notice → Nat
  | .adopted => 0
  | .limp => 1
  | .chain => 2
  | .parting => 3
  | .fault => 4
  | .cargo => 5
  | .outcome => 6
  | .grade => 7
  | .clash => 8
  | .resting => 9
  | .cabConflict => 10
  | .rxLost => 11
  | .outcomeLost => 12
  | .restarted => 13
  | .silenced => 14

/-- The notice mask with one kind's bit alone set. -/
def Notice.flag (n : Notice) : BitVec 15 := 1#15 <<< n.bit

/-- Whether the flag of a kind is set. -/
def State.flagSet (s : State) (n : Notice) : Bool := s.port.flags.getLsbD n.bit

/-- Sets a flag; a flag already set stays set (R167). -/
def State.notify (n : Notice) (s : State) : State :=
  s.setPort { s.port with flags := s.port.flags ||| n.flag }

/-- Sets a flag when a condition holds. -/
def State.notifyIf (c : Bool) (n : Notice) (s : State) : State :=
  if c then s.notify n else s

/-- INTN is asserted, and INT pending set, while a flag whose mask bit is set is set (R150, R169). -/
def State.intn (s : State) : Bool := s.port.flags &&& s.port.mask ≠ 0#15

end Sys2Proof.Machine
end

