-- ==== Sys2Proof/Machine/Ops.lean ====
section
/-! DEFINITION. The named operations the blocks share: the clock, the part's identity and setting, the
chain reports and drive pins, the counters, and the kind of round with what follows from it. -/

namespace Sys2Proof.Machine

/-! ## Clock and configuration -/

/-- The clock moved on to an instant, never back (log 2). -/
def State.advanceTo (t : Ticks) (s : State) : State := s.setNow (max s.now t)

/-- The station identity of the configuration image; no image, no station (log 26). -/
def State.identity (s : State) : Identity :=
  match s.port.image with
  | some i => i.identity
  | none => 0

/-- The permitted grade set taken in from the image (R45). -/
def State.permitted (s : State) : BitVec 4 :=
  match s.port.image with
  | some i => i.permitted
  | none => 0

/-- The confirmation count K (R11). -/
def State.k (s : State) : Nat :=
  match s.port.image with
  | some i => i.k
  | none => 3

/-- The payload maximum of the configuration. -/
def State.payloadMax (s : State) : PayloadMax :=
  match s.port.image with
  | some i => i.payloadMax
  | none => .p16

/-- The cab ends fitted. -/
def State.cabEnds (s : State) : CabEnds :=
  match s.port.image with
  | some i => i.cabEnds
  | none => .neither

/-- The part has left UNCONFIGURED. -/
def State.started (s : State) : Bool := s.port.part ≠ .unconfigured

/-! ## Chain reports and drive pins -/

/-- The triple an end reports (R22); in UNCONFIGURED the release input has no effect and the decoders are
held in OPEN (R2, R24). -/
def reportOf (started : Bool) (u : ChainUnit) : Triple :=
  if !started then ⟨.openEnd, 0, none⟩
  else if u.dec.state = .isolated then ⟨.isolated, 0, none⟩
  else if u.release then ⟨.parting, 0, none⟩
  else
    match u.dec.state, u.dec.held with
    | .acquiring, some c => ⟨.held, c.code, some c.cls⟩
    | .held, some c => ⟨.held, c.code, some c.cls⟩
    | .parting, _ => ⟨.parting, 0, none⟩
    | .fault, _ => ⟨.fault, 0, none⟩
    | _, _ => ⟨.openEnd, 0, none⟩

/-- The triple end `e` reports (R22). -/
def State.report (s : State) (e : End) : Triple := reportOf s.started (s.chain e)

/-- What an offer says of end `e` (R49). -/
def State.endPair (s : State) (e : End) : EndPair :=
  { report := s.report e, saturated := (s.chain e).drv.saturated }

/-- The period of an end's drive generator in chain steps (R3). -/
def periodSteps : End → Nat
  | .a => 18
  | .b => 22

/-- The drive condition in force at an end: a held level, or `none` for the pulse train. UNCONFIGURED is
stronger than isolation, and isolation than local release (R6). -/
def State.driveHold (s : State) (e : End) : Option Bool :=
  if !s.started then some false
  else if (s.chain e).dec.state = .isolated then some false
  else if (s.chain e).release then some true
  else none

/-- The level of the drive pin: high while the step count is below the loaded code plus one (R3, R6). -/
def State.drivePin (s : State) (e : End) : Bool :=
  match s.driveHold e with
  | some level => level
  | none =>
    match (s.chain e).drv.periodFrom with
    | none => false
    | some t => (s.now - t) / Config.chainStep % periodSteps e < (s.chain e).drv.loaded + 1

/-- The period count stops while a drive condition holds, and when the last one ends a period begins at
that instant with the pending code (R6). -/
def State.syncDrive (e : End) (s : State) : State :=
  let u := s.chain e
  match s.driveHold e, u.drv.periodFrom with
  | some _, _ => s.setChain e { u with drv := { u.drv with periodFrom := none } }
  | none, none =>
    s.setChain e { u with drv := { u.drv with loaded := u.drv.pending, periodFrom := some s.now } }
  | none, some _ => s

/-- The pending code and the saturated mark that follow a count reported by the other end (R4). -/
def Drive.follow (count : Nat) (d : Drive) : Drive :=
  { d with pending := min 16 (count + 1), saturated := decide (16 < count + 1) }

/-! ## Counters and error reports -/

/-- A 16-bit counter raised by one; it stays at 65 535 (R43). -/
def satInc (c : Counter) : Counter := if c = 0xFFFF#16 then c else c + 1

/-- The bus counters that an event raises (R43). -/
inductive CounterName where
  | format | crc | stuff | truncation | gradeSkip | stranger | stale | foreign | overrun
  deriving DecidableEq, Repr

/-- The counter of a name. -/
def Counters.get (c : Counters) : CounterName → Counter
  | .format => c.format
  | .crc => c.crc
  | .stuff => c.stuff
  | .truncation => c.truncation
  | .gradeSkip => c.gradeSkip
  | .stranger => c.stranger
  | .stale => c.stale
  | .foreign => c.foreign
  | .overrun => c.overrun

/-- One counter raised by one. -/
def Counters.raise (c : Counters) : CounterName → Counters
  | .format => { c with format := satInc c.format }
  | .crc => { c with crc := satInc c.crc }
  | .stuff => { c with stuff := satInc c.stuff }
  | .truncation => { c with truncation := satInc c.truncation }
  | .gradeSkip => { c with gradeSkip := satInc c.gradeSkip }
  | .stranger => { c with stranger := satInc c.stranger }
  | .stale => { c with stale := satInc c.stale }
  | .foreign => { c with foreign := satInc c.foreign }
  | .overrun => { c with overrun := satInc c.overrun }

/-- An event of the bus counters. -/
def State.count (n : CounterName) (s : State) : State :=
  s.setBus { s.bus with counters := s.bus.counters.raise n }

/-- A receive error or a strike reported to the grade monitor; its count stays at 255 (R115). -/
def State.reportError (s : State) : State :=
  s.setGrade { s.grade with errors := min 255 (s.grade.errors + 1) }

/-! ## Rosters and rounds -/

/-- The length n of a roster (R105). -/
def Roster.n (r : Roster) : Nat := r.entries.length

/-- The consist tag: the upper and the lower half of the digest combined by exclusive-or (R109). -/
def Roster.tag (r : Roster) : Tag := r.digest.extractLsb' 16 16 ^^^ r.digest.extractLsb' 0 16

/-- The identity of a HEARD entry. -/
def RosterEntry.id? : RosterEntry → Option Identity
  | .silent => none
  | .heard id _ _ _ _ => some id

/-- The identities of the HEARD entries. -/
def Roster.heardIds (r : Roster) : List Identity := r.entries.filterMap RosterEntry.id?

/-- The identity at a position, `none` where the position lies outside 1..n or is SILENT. -/
def Roster.idAt (r : Roster) (p : Nat) : Option Identity :=
  if p = 0 then none else r.entries[p - 1]?.bind RosterEntry.id?

/-- The position of an identity among some entries, counted from `p`. -/
def positionFrom (id : Identity) : List RosterEntry → Nat → Option Nat
  | [], _ => none
  | e :: es, p => if e.id? = some id then some p else positionFrom id es (p + 1)

/-- The position of a HEARD identity. -/
def Roster.posOf (r : Roster) (id : Identity) : Option Nat := positionFrom id r.entries 1

/-- A round runs (R63). -/
def State.roundRunning (s : State) : Bool :=
  match s.comp.state with
  | .quiet | .offer | .confirm => true
  | .idle | .settled | .limp | .halted => false

/-- A round now running is, or would be, a background round: a current roster exists and its status is
LIMP (R63). -/
def State.currentIsLimp (s : State) : Bool :=
  match s.comp.current with
  | some r => r.status = .limp
  | none => false

/-- The kind of round running (R63). -/
def State.roundKind (s : State) : RoundKind :=
  if s.roundRunning then (if s.currentIsLimp then .background else .foreground) else .noRound

/-- The cargo gate is open in SETTLED, in LIMP and throughout a background round (R63). -/
def State.gateOpen (s : State) : Bool :=
  s.comp.state = .settled || s.comp.state = .limp || s.roundKind = .background

/-- The presence duty is held in SETTLED, in LIMP and throughout a background round (R63). -/
def State.dutyHeld (s : State) : Bool := s.gateOpen

/-- The presence interval of a roster of length n (R85). -/
def presenceInterval (n : Nat) : Ticks :=
  if n ≤ 4 then Config.ms 100
  else if n ≤ 8 then Config.ms 150
  else if n ≤ 12 then Config.ms 200
  else Config.ms 250

/-- A member: an identity of a HEARD entry of the roster, other than the station itself (section 4.9). -/
def Roster.isMember (r : Roster) (own id : Identity) : Bool := id ≠ own && r.heardIds.contains id

/-! ## The composition slot -/

/-- A composition frame handed in takes the slot, replacing a frame not yet started (R31). -/
def State.handIn (f : CompFrame) (s : State) : State := s.setBus { s.bus with slot := some f }

/-- A composition frame cut off by lost arbitration or a strike returns to the slot, unless a newer one
has been handed in meanwhile (R32, R34). -/
def State.handBack (f : CompFrame) (s : State) : State :=
  match s.bus.slot with
  | some _ => s
  | none => s.handIn f

end Sys2Proof.Machine
end

