-- ==== Sys2Proof/Machine/Frame.lean ====
section
/-! DEFINITION. The bus frame as wire bits: fields, CRC, stuffing (R27 to R29), and the receiver that
reads them (R30, R36 to R38). A dominant bit is `false` and a recessive bit `true`. -/

namespace Sys2Proof.Machine

/-! ## Sending -/

/-- The CRC register after some bits: generator x^16 + x^12 + x^5 + 1 (R29). -/
def crc16 : List Bool → BitVec 16 → BitVec 16
  | [], r => r
  | b :: bs, r =>
    if r.msb != b then crc16 bs ((r <<< 1) ^^^ 0x1021#16) else crc16 bs (r <<< 1)

/-- The unstuffed bits the CRC covers: class, source identity, body grade, body length, body (R29). -/
def Frame.coveredBits (f : Frame) : List Bool :=
  bitsOf 3 f.cls ++ bitsOf 32 f.source.toNat ++ bitsOf 2 f.grade.code ++ bitsOf 8 f.body.length ++
    bitsOfBytes f.body

/-- The unstuffed bits from the class to the last CRC bit (R27); the CRC register starts at all ones and is
sent without inversion (R29). -/
def Frame.contentBits (f : Frame) : List Bool :=
  f.coveredBits ++ bitsOf 16 (crc16 f.coveredBits 0xFFFF#16).toNat

/-- The wire bits that follow a run of `run` bits equal to `last`: a stuff bit of the opposite value after
every run of five, also after the last bit (R28). -/
def stuffFrom (last : Bool) (run : Nat) : List Bool → List Bool
  | [] => if run = 5 then [!last] else []
  | b :: bs =>
    if run = 5 then (!last) :: b :: stuffFrom b (if b = !last then 2 else 1) bs
    else b :: stuffFrom b (if b = last then run + 1 else 1) bs

/-- The stuffed part of a frame: the start bit and the content with stuff bits (R28). -/
def Frame.stuffedBits (f : Frame) : List Bool := false :: stuffFrom false 1 f.contentBits

/-- The wire bits of a frame from the start bit to the last bit of the end field (R27). -/
def Frame.wireBits (f : Frame) : List Bool := f.stuffedBits ++ List.replicate 7 true

/-- The number of wire bits of the start bit and the arbitration field. A stuff bit belongs to the field of
the bit it follows (log 8). -/
def Frame.arbitrationLength (f : Frame) : Nat :=
  1 + (stuffFrom false 1 (f.contentBits.take 35)).length

/-! ## The idle count on an own frame (R26) -/

/-- The number of wire bits of the start bit and the header; a stuff bit takes the grade of the bit it
follows (R27). -/
def Frame.headerLength (f : Frame) : Nat := 1 + (stuffFrom false 1 (f.contentBits.take 45)).length

/-- The bit time of a wire bit: G1 in the header and the end field, the body grade between them (R27). -/
def Frame.bitTimeAt (f : Frame) (k : Nat) : Ticks :=
  if k < f.headerLength then Config.g1Bit
  else if k < f.stuffedBits.length then f.grade.bitTime
  else Config.g1Bit

/-- From the sample point of a bit to idle, where the bus has shown recessive bits of some total duration in a
row, that bit the latest, and stays recessive (R25, R26; log 12). -/
def untilIdle (recessive bitTime : Ticks) : Ticks := bitTime / 4 + (Config.idleTime - recessive)

/-- The duration of the run of recessive wire bits that ends before bit `k`. -/
def Frame.recessiveBefore (f : Frame) : (k : Nat) → Ticks
  | 0 => 0
  | k + 1 => if f.wireBits[k]? = some true then f.recessiveBefore k + f.bitTimeAt k else 0

/-- From the sample point of own bit `k` to idle, where the bits before it have been read as sent and that bit
recessive, and the bus stays recessive. -/
def Frame.idleAfter (f : Frame) (k : Nat) : Ticks :=
  untilIdle (f.recessiveBefore k + f.bitTimeAt k) (f.bitTimeAt k)

/-! ## Receiving -/

/-- The errors a receiver finds (R38). -/
inductive RxError where
  | format | stuff | crc | truncated
  deriving DecidableEq, Repr

/-- What a receiver has made of the bits so far. -/
inductive RxResult where
  | more (r : Rx)
  | error (e : RxError)
  | skip
  | complete (f : Frame)
  deriving DecidableEq, Repr

/-- The receiver after the start bit (R36). -/
def Rx.afterStart : Rx :=
  { last := false, run := 1, taken := [], endBits := 0, waiting := false
    recessive := 0, bitTime := Config.g1Bit }

/-- The number of a field of the bits taken: `width` bits from bit `start` after the start bit. -/
def Rx.field (r : Rx) (start width : Nat) : Nat := numOf ((r.taken.reverse.drop start).take width)

/-- The body length field (R27). -/
def Rx.bodyLength (r : Rx) : Nat := r.field 37 8

/-- The frame the bits taken make up. -/
def Rx.frame (r : Rx) : Frame :=
  { cls := r.field 0 3
    source := BitVec.ofNat 32 (r.field 3 32)
    grade := Grade.ofCode (r.field 35 2)
    body := bytesOfBits r.bodyLength (r.taken.reverse.drop 45) }

/-- The bits taken run to the last CRC bit. -/
def Rx.contentComplete (r : Rx) : Bool :=
  45 ≤ r.taken.length && r.taken.length = 45 + 8 * r.bodyLength + 16

/-- The received CRC equals the computed one (R29). -/
def Rx.crcMatches (r : Rx) : Bool :=
  let covered := r.taken.reverse.take (45 + 8 * r.bodyLength)
  (crc16 covered 0xFFFF#16).toNat = numOf (r.taken.reverse.drop (45 + 8 * r.bodyLength))

/-- The judgement when the last CRC bit, and any stuff bit due after it, has been taken (R29, R38). -/
def Rx.judgeCrc (r : Rx) : RxResult := if r.crcMatches then .more r else .error .crc

/-- The judgement of each header field as it becomes complete (R30), the permitted-grade check (R37), and
the CRC check where no stuff bit is due after the last CRC bit. -/
def Rx.judge (permitted : BitVec 4) (r : Rx) : RxResult :=
  if r.taken.length = 3 then
    if r.field 0 3 = 0 || r.field 0 3 = 5 || r.field 0 3 = 7 then .error .format else .more r
  else if r.taken.length = 37 then
    if r.field 0 3 ≤ 3 && r.field 35 2 ≠ 0 then .error .format else .more r
  else if r.taken.length = 45 then
    if 140 < r.bodyLength then .error .format
    else if permits permitted (Grade.ofCode (r.field 35 2)) then .more r
    else .skip
  else if r.contentComplete then
    if r.run = 5 then .more r else r.judgeCrc
  else .more r

/-- The receiver judges one wire bit (R28, R36, R38). -/
def Rx.judgeBit (permitted : BitVec 4) (r : Rx) (b : Bool) : RxResult :=
  if r.waiting then
    if b then .more r else .error .stuff
  else if r.run = 5 then
    if b = r.last then
      if b then .more { r with run := 6, waiting := true } else .error .stuff
    else if r.contentComplete then
      Rx.judgeCrc { r with last := b, run := 1 }
    else .more { r with last := b, run := 1 }
  else if r.contentComplete then
    if !b then .error .format
    else if r.endBits = 6 then .complete r.frame
    else .more { r with endBits := r.endBits + 1 }
  else
    Rx.judge permitted
      { r with last := b, run := if b = r.last then r.run + 1 else 1, taken := b :: r.taken }

/-- The bit time of the next wire bit: a content bit has the grade of its field, a stuff bit that of the
content bit it follows, and an end-field bit G1 (R27). -/
def Rx.nextBitTime (r : Rx) : Ticks :=
  let content := if r.run = 5 || r.waiting then r.taken.length - 1 else r.taken.length
  if content < 45 then Config.g1Bit
  else if r.run ≠ 5 && r.contentComplete then Config.g1Bit
  else (Grade.ofCode (r.field 35 2)).bitTime

/-- The bus level of the next wire bit counts for idle (R26). -/
def Rx.hear (r : Rx) (b : Bool) : Rx :=
  { r with
    recessive := if b then r.recessive + r.nextBitTime else 0
    bitTime := r.nextBitTime }

/-- The receiver takes one wire bit. -/
def Rx.step (permitted : BitVec 4) (r : Rx) (b : Bool) : RxResult := (r.hear b).judgeBit permitted b

/-- The receiver takes wire bits until it has a result; bits after the result are not the frame's. -/
def Rx.feed (permitted : BitVec 4) (r : Rx) : List Bool → RxResult
  | [] => .more r
  | b :: bs =>
    match r.step permitted b with
    | .more r' => Rx.feed permitted r' bs
    | done => done

/-- From the sample point of the latest bit to idle, where the bus stays recessive. -/
def Rx.untilIdle (r : Rx) : Ticks := Sys2Proof.Machine.untilIdle r.recessive r.bitTime

/-- From the last of some wire bits that the receiver takes to idle, where the bus stays recessive (R26). -/
def Rx.idleAfter (permitted : BitVec 4) (r : Rx) : List Bool → Ticks
  | [] => r.untilIdle
  | b :: bs =>
    match r.step permitted b with
    | .more r' => Rx.idleAfter permitted r' bs
    | .error _ | .skip | .complete _ => (r.hear b).untilIdle

/-- The bus recessive until it is idle: the receiver reads eleven recessive bits, and six of them in the
stuffed part with no dominant bit before idle are a truncated frame (R26, R38; log 9). -/
def Rx.atIdle (permitted : BitVec 4) (r : Rx) : RxResult :=
  match r.feed permitted (List.replicate 11 true) with
  | .more _ => .error .truncated
  | done => done

/-- The bits the station has read of its own frame when its bit number `k` reads back as the opposite:
the bits before it as sent, and that bit inverted (R32, R34). The start bit is not counted. -/
def Frame.readBack (f : Frame) (k : Nat) : List Bool :=
  (f.wireBits.take k).drop 1 ++
    (match f.wireBits[k]? with
     | some b => if k = 0 then [] else [!b]
     | none => [])

end Sys2Proof.Machine
end

