-- ==== Sys2Proof/Machine/CargoOps.lean ====
section
/-! DEFINITION. The cargo router: outcomes, the ends of a flight, the rename pass, head candidates, the
flush, and the acceptance of received cargo (chapter 7). -/

namespace Sys2Proof.Machine

/-! ## Outcomes and removal -/

/-- An outcome record joins the outcome queue, or is lost when the queue holds 32 (R145). -/
def State.post (ticket : Nat) (kind : OutcomeKind) (finalPos : Option Nat) (s : State) : State :=
  if s.cargo.outcomes.length < 32 then
    (s.setCargo { s.cargo with outcomes := s.cargo.outcomes ++ [⟨ticket, kind, finalPos⟩] }).notify
      .outcome
  else
    (s.setCargo { s.cargo with outcomeLoss := satInc s.cargo.outcomeLoss }).notify .outcomeLost

/-- The transmit entry of a ticket. -/
def State.entryOf (s : State) (ticket : Nat) : Option TxEntry :=
  s.cargo.queue.find? fun x => x.ticket = ticket

/-- The transmit queue with the entry of a ticket changed, in its place. -/
def State.mapEntry (ticket : Nat) (f : TxEntry → TxEntry) (s : State) : State :=
  s.setCargo { s.cargo with queue := s.cargo.queue.map fun x => if x.ticket = ticket then f x else x }

/-- The transmit queue without the entry of a ticket; the entries behind it close up (R125). -/
def State.dropEntry (ticket : Nat) (s : State) : State :=
  s.setCargo { s.cargo with queue := s.cargo.queue.filter fun x => x.ticket ≠ ticket }

/-- The removal of an entry with its one outcome (R145). -/
def State.removeEntry (ticket : Nat) (kind : OutcomeKind) (finalPos : Option Nat) (s : State) : State :=
  (s.dropEntry ticket).post ticket kind finalPos

/-! ## The rename pass (R136 to R139) -/

/-- The destination review of an entry: its new destination, or the outcome that removes it (R137, R138). A
bound entry without a previous roster does not arise (R136); it names no known carriage (log 25). -/
def reviewDest (previous : Option Roster) (current : Roster) : Dest → Except OutcomeKind Dest
  | .position p true =>
    match previous.bind (fun r => r.idAt p) with
    | none => .error .unresolved
    | some id =>
      match current.posOf id with
      | some q => .ok (.position q true)
      | none => .error .departed
  | .position p false =>
    if (current.idAt p).isSome ∧ p ≠ current.ownPos then .ok (.position p true)
    else .error .unresolved
  | .identity id => if current.heardIds.contains id then .ok (.identity id) else .error .departed
  | .leading => .ok .leading
  | .trailing => .ok .trailing
  | .all => .ok .all

/-- The whole review of an entry: destination, then the joint payload (R139). -/
def reviewEntry (previous : Option Roster) (current : Roster) (x : TxEntry) :
    Except OutcomeKind TxEntry :=
  match reviewDest previous current x.dest with
  | .error k => .error k
  | .ok d =>
    if current.jointPayload.bytes < x.payload.length then .error .oversize
    else .ok { x with dest := d, renameOwed := false }

/-- The review of one queued entry at an adoption; an entry in flight owes its rename (R136). -/
def State.renameOne (previous : Option Roster) (current : Roster) (s : State) (x : TxEntry) : State :=
  if x.inFlight then s.mapEntry x.ticket fun y => { y with renameOwed := true }
  else
    match reviewEntry previous current x with
    | .ok y => s.mapEntry x.ticket fun _ => y
    | .error k => s.removeEntry x.ticket k none

/-- The rename pass over the transmit queue, in queue order, from the previous and current rosters as they
stand (R136). -/
def State.renamePass (s : State) : State :=
  match s.comp.current with
  | none => s
  | some cur => s.cargo.queue.foldl (State.renameOne s.comp.previous cur) s

/-! ## Flights (R130, R131, R133) -/

/-- An entry that leaves flight and would return to the queue: removed when its lifetime has lapsed, else
reviewed when it owes a rename, else back in its place (R131, R133, R136). -/
def State.returnEntry (ticket : Nat) (s : State) : State :=
  match s.entryOf ticket with
  | none => s
  | some x =>
    let y := { x with inFlight := false }
    if x.lapsed then s.removeEntry ticket .expired none
    else if x.renameOwed then
      match s.comp.current with
      | none => s.mapEntry ticket fun _ => { y with renameOwed := false }
      | some cur =>
        match reviewEntry s.comp.previous cur y with
        | .ok z => s.mapEntry ticket fun _ => z
        | .error k => s.removeEntry ticket k none
    else s.mapEntry ticket fun _ => y

/-- A flight that ends in a strike: the attempt count rises, and the third attempt is the last (R131). -/
def State.strikeEntry (ticket : Nat) (s : State) : State :=
  match s.entryOf ticket with
  | none => s
  | some x =>
    if 3 ≤ x.attempts + 1 then s.removeEntry ticket .busFailure none
    else (s.mapEntry ticket fun y => { y with attempts := y.attempts + 1 }).returnEntry ticket

/-- The wire destination of a frame: mode, value, and the position it names (R130). -/
def wireDest (cur : Roster) : Dest → WireMode × BitVec 32 × Option Nat
  | .position p _ => (.position, BitVec.ofNat 32 p, some p)
  | .leading => (.position, 1, some 1)
  | .trailing => (.position, BitVec.ofNat 32 cur.n, some cur.n)
  | .identity id => (.identity, id, none)
  | .all => (.all, 0, none)

/-- The cargo body of an entry under the current roster (R130, R175). -/
def cargoBody (cur : Roster) (x : TxEntry) : List Byte :=
  let (mode, value, _) := wireDest cur x.dest
  bytes16 cur.tag ++ [byteOf mode.code] ++ bytes32 value ++
    [byteOf cur.ownPos, byteOf x.payload.length] ++ x.payload

/-- The cargo frame of an entry, fixed when its start bit is sent (R130, R44). -/
def State.cargoFrame (s : State) (cur : Roster) (x : TxEntry) : Frame :=
  { cls := if x.urgent then 4 else 6
    source := s.identity
    grade := s.bus.cargoGrade
    body := cargoBody cur x }

/-- A LEADING or TRAILING entry that would go to the station itself (R129). -/
def namesOwn (cur : Roster) : Dest → Bool
  | .leading => cur.ownPos = 1
  | .trailing => cur.ownPos = cur.n
  | .position _ _ | .identity _ | .all => false

/-- The order in which entries are chosen: URGENT before ROUTINE, oldest first, none in flight (R129). -/
def choiceOrder (queue : List TxEntry) : List TxEntry :=
  (queue.filter fun x => x.urgent && !x.inFlight) ++ (queue.filter fun x => !x.urgent && !x.inFlight)

/-- The choice of a head candidate: entries that name the own position are removed with UNRESOLVED until
one qualifies (R129). -/
def State.chooseFrom (cur : Roster) : List TxEntry → State → State × Option TxEntry
  | [], s => (s, none)
  | x :: xs, s =>
    if namesOwn cur x.dest then State.chooseFrom cur xs (s.removeEntry x.ticket .unresolved none)
    else (s, some x)

/-- The head candidate the router names while the cargo gate is open, with the removals naming it makes
(R129). -/
def State.headCandidate (s : State) : State × Option TxEntry :=
  if s.gateOpen then
    match s.comp.current with
    | some cur => State.chooseFrom cur (choiceOrder s.cargo.queue) s
    | none => (s, none)
  else (s, none)

/-- The flush on SILENCED: every entry leaves with FLUSHED, in queue order (R140). -/
def State.flush (s : State) : State :=
  s.cargo.queue.foldl (fun t x => t.removeEntry x.ticket .flushed none) s

/-! ## Receiving (R141 to R143) -/

/-- A received wire destination. -/
inductive WireDest where
  | position (p : Nat)
  | identity (id : Identity)
  | all
  deriving DecidableEq, Repr

/-- The wire destination mode of a destination. -/
def WireDest.mode : WireDest → WireMode
  | .position _ => .position
  | .identity _ => .identity
  | .all => .all

/-- A well-formed cargo body (R141). -/
structure CargoBody where
  tag       : Tag
  dest      : WireDest
  sourcePos : Nat
  payload   : List Byte
  deriving DecidableEq, Repr

/-- The wire destination of a mode byte and a value; POSITION reads its last byte alone (R141, R175). -/
def wireDestOf? (mode : Byte) (v0 v1 v2 v3 : Byte) : Option WireDest :=
  match mode.toNat with
  | 0 => if 1 ≤ v3.toNat ∧ v3.toNat ≤ 16 then some (.position v3.toNat) else none
  | 1 => if word32 v0 v1 v2 v3 ≠ 0 then some (.identity (word32 v0 v1 v2 v3)) else none
  | 2 => some .all
  | _ => none

/-- A delivered cargo body, or `none` where it is malformed (R141, R175). -/
def cargoBodyOf? (body : List Byte) : Option CargoBody :=
  match body with
  | t0 :: t1 :: mode :: v0 :: v1 :: v2 :: v3 :: pos :: len :: payload =>
    match wireDestOf? mode v0 v1 v2 v3 with
    | none => none
    | some d =>
      if payload.length = len.toNat ∧ 1 ≤ len.toNat ∧ len.toNat ≤ 128 ∧ 1 ≤ pos.toNat ∧
          pos.toNat ≤ 16 then
        some ⟨word16 t0 t1, d, pos.toNat, payload⟩
      else none
  | _ => none

/-- Acceptance under the current roster (R142). -/
def acceptCurrent (own : Identity) (cur : Roster) : WireDest → Bool
  | .all => true
  | .identity id => id = own
  | .position p => p = cur.ownPos

/-- Acceptance under the previous roster (R142). -/
def acceptPrevious (own : Identity) (prev : Roster) : WireDest → Bool
  | .all => true
  | .identity id => id = own
  | .position p => prev.idAt p = some own

/-- A POSITION arrival accepted under the previous roster is marked renamed (R142). -/
def WireDest.isPosition : WireDest → Bool
  | .position _ => true
  | .identity _ | .all => false

/-- An accepted frame joins the receive queue, or is dropped as an overrun when it holds 16 (R143). -/
def State.storeArrival (x : RxEntry) (s : State) : State :=
  if s.cargo.received.length < 16 then
    (s.setCargo { s.cargo with received := s.cargo.received ++ [x] }).notify .cargo
  else (s.notify .rxLost).count .overrun

/-- The roster a tag is judged under: the current one, else the previous one, and whether it is the previous
(R141). Without a current roster there is no tag to match. -/
def State.rosterOfTag (s : State) (tag : Tag) : Option (Roster × Bool) :=
  match s.comp.current with
  | none => none
  | some cur =>
    if tag = cur.tag then some (cur, false)
    else
      match s.comp.previous with
      | none => none
      | some prev => if tag = prev.tag then some (prev, true) else none

/-- A cargo frame delivered to the router (R141 to R143). -/
def State.deliverCargo (f : Frame) (s : State) : State :=
  match cargoBodyOf? f.body with
  | none => s
  | some b =>
    match s.rosterOfTag b.tag with
    | none => s.count .foreign
    | some (r, isPrevious) =>
      let accepted :=
        if isPrevious then acceptPrevious s.identity r b.dest else acceptCurrent s.identity r b.dest
      if accepted then
        s.storeArrival
          { source := f.source, sourcePos := b.sourcePos, mode := b.dest.mode
            renamed := isPrevious && b.dest.isPosition, grade := f.grade, payload := b.payload }
      else s

end Sys2Proof.Machine
end

