-- ==== Sys2Proof/Machine/Placement.lean ====
section
/-! DEFINITION. Placement: walks, the own run, the cab rule, numbering, and the roster record with its
joint parameters and digest (chapter 5). -/

namespace Sys2Proof.Machine

/-! ## The entries placement works on -/

/-- An entry put in its place by identity. -/
def insertById (e : HeardEntry) : List HeardEntry → List HeardEntry
  | [] => [e]
  | x :: xs => if e.id.toNat ≤ x.id.toNat then e :: x :: xs else x :: insertById e xs

/-- The heard table's entries by rising identity: placement depends on the entries, not on the order in
which they were heard (R91). -/
def sortById (table : List HeardEntry) : List HeardEntry := table.foldr insertById []

/-- A true end: OPEN, ISOLATED or PARTING (R92). -/
def Triple.isTrueEnd (t : Triple) : Bool :=
  match t.state with
  | .openEnd | .isolated | .parting => true
  | .held | .fault => false

/-- What an entry's offer reports of an end. -/
def HeardEntry.at (x : HeardEntry) (e : End) : Triple := (x.offer.pair e).report

/-- An entry with a saturated mark on either end (R92). -/
def HeardEntry.saturated (x : HeardEntry) : Bool :=
  x.offer.endA.saturated || x.offer.endB.saturated

/-! ## Evidence of the current roster (R94) -/

/-- The orientation and position of a HEARD identity among some entries, counted from `p`. -/
def findHeard (id : Identity) : List RosterEntry → Nat → Option (Nat × Orientation)
  | [], _ => none
  | .silent :: es, p => findHeard id es (p + 1)
  | .heard i o _ _ _ :: es, p => if i = id then some (p, o) else findHeard id es (p + 1)

/-- The neighbour beyond an end of a HEARD identity in a roster (R94). -/
def Roster.neighbour (r : Roster) (id : Identity) (e : End) : Option Identity :=
  match findHeard id r.entries 1 with
  | none => none
  | some (p, o) =>
    match o, e with
    | .forward, .a | .reversed, .b => r.idAt (p - 1)
    | .forward, .b | .reversed, .a => r.idAt (p + 1)

/-- The roster shows that another station than `other` stood beyond end `e` of `id`. -/
def contradicts (current : Option Roster) (id : Identity) (e : End) (other : Identity) : Bool :=
  match current.bind (fun r => r.neighbour id e) with
  | some x => x ≠ other
  | none => false

/-! ## Walks (R93, R95) -/

/-- An entry placed on a walk and the end by which the walk reached it; for the anchor, the start end. -/
structure Placed where
  entry : HeardEntry
  near  : End
  deriving DecidableEq, Repr

/-- How a walk ended (R95). -/
inductive Ending where
  | closed | faultStopped | gapStopped
  deriving DecidableEq, Repr

/-- A walk: its entries in walk order and its ending (R93, R95). -/
structure Walk where
  placed : List Placed
  ending : Ending
  deriving DecidableEq, Repr

/-- A walk, or the matches of a step that found more than one (R93). -/
inductive WalkResult where
  | walk (w : Walk)
  | conflict (ids : List Identity)
  deriving DecidableEq, Repr

/-- The identities a walk places, in walk order. -/
def Walk.ids (w : Walk) : List Identity := w.placed.map (fun p => p.entry.id)

/-- The walk's anchor and start end. -/
def Walk.start (w : Walk) : Option Placed := w.placed.head?

/-- The matches of a walk step: from entry `s` over its end `y`, which faces an end of letter `t`, after
`k` entries have been placed (R93, R94). -/
def matchesOf (entries : List HeardEntry) (current : Option Roster) (seen : List Identity)
    (s : HeardEntry) (y t : End) (k : Nat) : List HeardEntry :=
  entries.filter fun c =>
    !seen.contains c.id && (c.at t).count = k && (c.at t).facing = some y &&
    !contradicts current s.id y c.id && !contradicts current c.id t s.id

/-- The walk on from the entry `last`, with the entries placed before it latest first (R93). `fuel` bounds
the entries: a walk places each entry of the table at most once. -/
def walkOn (entries : List HeardEntry) (current : Option Roster) :
    (fuel : Nat) → (last : Placed) → (before : List Placed) → WalkResult
  | 0, last, before => .walk ⟨(last :: before).reverse, .gapStopped⟩
  | fuel + 1, last, before =>
    let y := last.near.other
    let t := last.entry.at y
    let placed := last :: before
    if t.isTrueEnd then .walk ⟨placed.reverse, .closed⟩
    else if t.state = .fault then .walk ⟨placed.reverse, .faultStopped⟩
    else
      match t.facing with
      | none => .walk ⟨placed.reverse, .gapStopped⟩
      | some f =>
        match matchesOf entries current (placed.map (fun p => p.entry.id)) last.entry y f
            placed.length with
        | [] => .walk ⟨placed.reverse, .gapStopped⟩
        | [m] => walkOn entries current fuel ⟨m, f⟩ placed
        | ms => .conflict (ms.map HeardEntry.id)

/-- The walk from a true end. -/
def walkFrom (entries : List HeardEntry) (current : Option Roster) (start : Placed) : WalkResult :=
  walkOn entries current entries.length start []

/-- Every true end of every entry. -/
def trueEnds (entries : List HeardEntry) : List Placed :=
  entries.flatMap fun x =>
    ([End.a, End.b].filter fun e => (x.at e).isTrueEnd).map fun e => ⟨x, e⟩

/-- One walk from every true end (R93). -/
def allWalks (entries : List HeardEntry) (current : Option Roster) : List WalkResult :=
  (trueEnds entries).map (walkFrom entries current)

/-- The walks that ended. -/
def walksOf (rs : List WalkResult) : List Walk :=
  rs.filterMap fun r => match r with
    | .walk w => some w
    | .conflict _ => none

/-- The sets of matches that walks met in conflict. -/
def conflictsOf (rs : List WalkResult) : List (List Identity) :=
  rs.filterMap fun r => match r with
    | .walk _ => none
    | .conflict ids => some ids

/-! ## The own run (R96 to R101) -/

/-- A reference position: SILENT, or an entry with the end that faces the reference end (R101). -/
abbrev RunSlot := Option Placed

/-- What step 4 finds. -/
inductive RunResult where
  | run (slots : List RunSlot) (split : Bool)
  /-- The mirror check of R97 fails; the entries not placed alike by both walks. -/
  | mirror (ids : List Identity)
  /-- The own entry stands on more than one walk and none of them is closed. -/
  | tangled
  | unplaced
  deriving DecidableEq, Repr

/-- The mirror check of R97 has failed. -/
def RunResult.failsMirror : RunResult → Bool
  | .mirror _ => true
  | .run _ _ | .tangled | .unplaced => false

/-- The slots of W1: each entry faces the reference end with the end by which W1 reached it. -/
def Walk.slots (w : Walk) : List RunSlot := w.placed.map some

/-- The slots of W2 seen from the reference end (R98, R99): the last placed comes first, and each entry
faces the reference end with the end opposite to the one W2 reached it by (R101). -/
def Walk.farSlots (w : Walk) : List RunSlot :=
  w.placed.reverse.map fun p => some ⟨p.entry, p.near.other⟩

/-- The true end at the other extremity of a closed walk (R97). -/
def Walk.otherEnd (w : Walk) : Option (Identity × End) :=
  w.placed.getLast?.map fun p => (p.entry.id, p.near.other)

/-- The walk that starts at an end. -/
def startingAt (ws : List Walk) (at_ : Identity × End) : Option Walk :=
  ws.find? fun w => match w.start with
    | some p => p.entry.id = at_.1 && p.near = at_.2
    | none => false

/-- The identities that two walks do not place mirror-wise: at walk position j of one and m + 1 − j of the
other, m the length of the first (R97, R110). -/
def notMirrored (w w' : Walk) : List Identity :=
  let m := w.placed.length
  let agree := (List.range m).filterMap fun j =>
    match w.ids[j]?, w'.ids[m - 1 - j]? with
    | some x, some y => if x = y then some x else none
    | _, _ => none
  (w.ids ++ w'.ids).eraseDups.filter fun x => !agree.contains x

/-- The own run of a closed walk and the walk from its other extremity (R97). -/
def closedRun (ws : List Walk) (w : Walk) : RunResult :=
  match w.otherEnd.bind (startingAt ws) with
  | none => .mirror w.ids
  | some w' =>
    if w'.ending = .closed ∧ w'.placed.length = w.placed.length ∧ w'.ids.reverse = w.ids then
      match w.start, w'.start with
      | some p, some p' =>
        let first :=
          if p.entry.id = p'.entry.id then decide (p.near = .a)
          else decide (p.entry.id.toNat < p'.entry.id.toNat)
        .run (if first then w.slots else w'.slots) false
      | _, _ => .mirror w.ids
    else .mirror (notMirrored w w')

/-- Two walks share an entry. -/
def shareEntry (w w' : Walk) : Bool := w.ids.any fun i => w'.ids.contains i

/-- Two walks are the same walk: they have the same start. -/
def sameStart (w w' : Walk) : Bool :=
  match w.start, w'.start with
  | some p, some p' => p.entry.id = p'.entry.id && p.near = p'.near
  | _, _ => false

/-- The run length that a walk's anchor implies: the count at its inner end plus one (R98). -/
def impliedLength (w : Walk) : Nat :=
  match w.start with
  | some p => (p.entry.at p.near.other).count + 1
  | none => 0

/-- The own run from a gap-stopped W1 (R98). A run length above 16 has no partner (R110; log 18). -/
def gapRun (ws : List Walk) (w1 : Walk) : RunResult :=
  let len := impliedLength w1
  let partners := ws.filter fun w2 =>
    w2.ending = .gapStopped && !sameStart w1 w2 && impliedLength w2 = len && !shareEntry w1 w2 &&
    decide (w1.placed.length + w2.placed.length < len) && decide (len ≤ 16)
  match partners with
  | [w2] =>
    .run (w1.slots ++ List.replicate (len - w1.placed.length - w2.placed.length) none ++ w2.farSlots)
      false
  | _ => .run w1.slots true

/-- The own run from a fault-stopped W1 (R99). -/
def faultRun (ws : List Walk) (own : Identity) (w1 : Walk) : RunResult :=
  let partners := ws.filter fun w2 =>
    w2.ending = .faultStopped && !sameStart w1 w2 && !w2.ids.contains own && !shareEntry w1 w2
  match partners with
  | [w2] => .run (w1.slots ++ w2.farSlots) false
  | _ => .run w1.slots true

/-- What counts of the results of several closed walks that hold the own entry: the failed mirror checks where there
are any, since every closed walk on which the own entry stands must pass its check, else all of them (R97, R110). -/
def decisive (rs : List RunResult) : List RunResult :=
  match rs.filter RunResult.failsMirror with
  | [] => rs
  | failed => failed

/-- What step 4 can find: one result where no closed walk holds the own entry, else what counts of the results of
those that do (R96, R97; log 17). -/
def ownRuns (ws : List Walk) (own : Identity) : List RunResult :=
  let mine := ws.filter fun w => w.ids.contains own
  match mine.filter (fun w => w.ending = .closed) with
  | [] =>
    match mine with
    | [] => [.unplaced]
    | [w1] =>
      [match w1.ending with
        | .gapStopped => gapRun ws w1
        | .faultStopped => faultRun ws own w1
        | .closed => .unplaced]
    | _ => [.tangled]
  | closed => decisive (closed.map (closedRun ws))

/-- One of several results. Where they are all one, it is that one; where they differ the choice is open and
a free value makes it (log 16, log 17). -/
def pickBy {α : Type} [DecidableEq α] (choice : Nat) (alternatives : List α) (fallback : α) : α :=
  match alternatives.eraseDups with
  | [] => fallback
  | [x] => x
  | xs => xs.getD (choice % xs.length) fallback

/-- The own run of limp placement, which needs the entries that a failed mirror check drops (R96, R110). Where
several checks fail over different entries, which are dropped first is open (log 17). -/
def ownRun (ws : List Walk) (own : Identity) : RunResult :=
  pickBy (Config.ownWalkChoice (ws.map Walk.ids)) (ownRuns ws own) .unplaced

/-- A failed mirror check without the entries it would drop: full placement fails with CONFLICT whichever
they are (R97). -/
def RunResult.forget : RunResult → RunResult
  | .mirror _ => .mirror []
  | r => r

/-- The own run of full placement (R96): CONFLICT where any closed walk that holds the own entry fails its mirror
check (R97). -/
def ownRunFull (ws : List Walk) (own : Identity) : RunResult :=
  pickBy (Config.ownWalkChoice (ws.map Walk.ids)) ((ownRuns ws own).map RunResult.forget) .unplaced

/-! ## Cab rule, numbering and the roster record (R102 to R109) -/

/-- The active end of an entry's cab, if any (R102). -/
def HeardEntry.activeEnd (x : HeardEntry) : Option End :=
  match x.offer.cab with
  | .activeA => some .a
  | .activeB => some .b
  | .noCab | .idle => none

/-- The HEARD entries of a run. -/
def heardSlots (slots : List RunSlot) : List Placed := slots.filterMap id

/-- The entry with the smallest identity. -/
def smallest : List Placed → Option Placed
  | [] => none
  | p :: ps =>
    match smallest ps with
    | none => some p
    | some q => if p.entry.id.toNat ≤ q.entry.id.toNat then some p else some q

/-- The active entries of a run. -/
def activeSlots (slots : List RunSlot) : List Placed :=
  (heardSlots slots).filter fun p => p.entry.activeEnd.isSome

/-- The winner of the cab rule (R102). -/
def winner (slots : List RunSlot) : Option Placed := smallest (activeSlots slots)

/-- Whether the reference end leads (R102, R103). -/
def referenceLeads (slots : List RunSlot) : Bool :=
  match winner slots with
  | some w => w.entry.activeEnd = some w.near
  | none =>
    match slots.head?, slots.getLast? with
    | some (some p), some (some q) =>
      if slots.length = 1 then p.near = .a else p.entry.id.toNat < q.entry.id.toNat
    | _, _ => true

/-- The cab field of an entry (R104). -/
def cabField (win : Option Placed) (x : HeardEntry) : CabField :=
  match x.offer.cab with
  | .noCab => .noCab
  | .idle => .idle
  | .activeA | .activeB =>
    if win.map (fun p => p.entry.id) = some x.id then .active else .overruled

/-- The roster entry of a run slot; FORWARD when the A end faces the leading end (R104, R106). -/
def rosterEntry (refLeads : Bool) (win : Option Placed) : RunSlot → RosterEntry
  | none => .silent
  | some p =>
    .heard p.entry.id (if decide (p.near = .a) = refLeads then .forward else .reversed)
      (cabField win p.entry) p.entry.offer.ceiling p.entry.offer.payloadMax

/-- The entries in position order: as the run when the reference end leads, else from its other end
(R104). -/
def numbered (slots : List RunSlot) : List RosterEntry :=
  let refLeads := referenceLeads slots
  (if refLeads then slots else slots.reverse).map (rosterEntry refLeads (winner slots))

/-- The length cap of the band table (R107). -/
def lengthCap (n : Nat) : Grade := if n ≤ 8 then .g4 else .g3

/-- The joint grade of a roster of status COMPLETE or PARTIAL (R107). -/
def jointGradeOf (entries : List RosterEntry) : Grade :=
  entries.foldl (fun g e => match e with
    | .silent => g
    | .heard _ _ _ c _ => g.min c) (lengthCap entries.length)

/-- The joint payload of a roster of status COMPLETE or PARTIAL (R107). -/
def jointPayloadOf (entries : List RosterEntry) : PayloadMax :=
  entries.foldl (fun p e => match e with
    | .silent => p
    | .heard _ _ _ _ m => p.min m) .p128

/-- The five bytes of the digest's sequence for one entry (R108). -/
def RosterEntry.digestBytes : RosterEntry → List Byte
  | .silent => [0, 0, 0, 0, 0]
  | .heard id o cab _ _ => bytes32 id ++ [bitAt o.bit 7 ||| byteOf cab.code]

/-- The byte sequence of the digest (R108, section 10.2.3). -/
def digestInput (entries : List RosterEntry) (g : Grade) (p : PayloadMax) : List Byte :=
  entries.flatMap RosterEntry.digestBytes ++ [byteOf entries.length, byteOf g.code, byteOf p.code]

/-- The CRC-32 register after some bits: generator 0x04C11DB7, most significant bit first (R108). -/
def crc32 : List Bool → BitVec 32 → BitVec 32
  | [], r => r
  | b :: bs, r =>
    if r.msb != b then crc32 bs ((r <<< 1) ^^^ 0x04C11DB7#32) else crc32 bs (r <<< 1)

/-- The digest: the register starts at all ones and is taken without inversion (R108). -/
def digestOf (entries : List RosterEntry) (g : Grade) (p : PayloadMax) : Digest :=
  crc32 (bitsOfBytes (digestInput entries g p)) 0xFFFFFFFF#32

/-- The roster of an own run (R104 to R109). A limp roster has status LIMP, joint grade G1 and joint payload
16 whatever its entries (R111). -/
def buildRoster (limp : Bool) (epoch : Epoch) (own : Identity) (slots : List RunSlot) (split : Bool) :
    Roster :=
  let entries := numbered slots
  let g := if limp then Grade.g1 else jointGradeOf entries
  let p := if limp then PayloadMax.p16 else jointPayloadOf entries
  { epoch := epoch
    digest := digestOf entries g p
    ownPos := (positionFrom own entries 1).getD 1
    status :=
      if limp then .limp else if entries.contains .silent then .partialRoster else .complete
    jointGrade := g
    jointPayload := p
    cabConflict := decide (2 ≤ (activeSlots slots).length)
    noCab := (activeSlots slots).isEmpty
    split := split
    entries := entries }

/-! ## Full placement (R91) -/

/-- The results of full placement (R72, R91). -/
inductive PlacementResult where
  | success (r : Roster)
  | conflict
  | unplaced
  | overflow
  | tooLong
  deriving DecidableEq, Repr

/-- The result of full placement that a result of step 4 gives. -/
def placementOfRun (epoch : Epoch) (own : Identity) : RunResult → PlacementResult
  | .run slots split => .success (buildRoster false epoch own slots split)
  | .mirror _ | .tangled => .conflict
  | .unplaced => .unplaced

/-- Full placement: overflow, saturation, walks, own run, record, in that order (R91). -/
def place (table : List HeardEntry) (overflow : Bool) (current : Option Roster) (epoch : Epoch)
    (own : Identity) : PlacementResult :=
  if overflow then .overflow
  else if table.any HeardEntry.saturated then .tooLong
  else
    let rs := allWalks (sortById table) current
    if (conflictsOf rs).isEmpty then placementOfRun epoch own (ownRunFull (walksOf rs) own)
    else .conflict

/-! ## Limp placement (R110, R111) -/

/-- The own entry alone: its A end is taken as the reference end, so that it leads toward its active end if
it has one and toward its A end if not (R110). -/
def aloneSlots (own : HeardEntry) : List RunSlot := [some ⟨own, .a⟩]

/-- The own run of limp placement on a working set, with at most `fuel` restarts (R110). -/
def limpRun (current : Option Roster) (own : HeardEntry) :
    (fuel : Nat) → (working : List HeardEntry) → List RunSlot × Bool
  | 0, _ => (aloneSlots own, true)
  | fuel + 1, working =>
    let rs := allWalks working current
    match conflictsOf rs with
    | [] =>
      match ownRun (walksOf rs) own.id with
      | .run slots split => (slots, split)
      | .mirror drop => limpRun current own fuel (working.filter fun x => !drop.contains x.id)
      | .tangled | .unplaced => (aloneSlots own, true)
    | conflicts =>
      let drop := pickBy (Config.limpConflictChoice conflicts) conflicts []
      limpRun current own fuel (working.filter fun x => !drop.contains x.id)

/-- The limp roster (R110, R111). -/
def limpRoster (table : List HeardEntry) (current : Option Roster) (epoch : Epoch) (own : HeardEntry) :
    Roster :=
  let (slots, split) := limpRun current own (table.length + 1) (sortById table)
  buildRoster true epoch own.id slots split

end Sys2Proof.Machine
end

