-- ==== Sys2Proof/Machine/CompositionOps.lean ====
section
/-! DEFINITION. The composition engine: offers and confirms, the heard table, epoch changes, triggers,
placement, adoption, LIMP, HALTED, and the handling of received composition frames (chapters 3 and 4). -/

namespace Sys2Proof.Machine

/-! ## The epoch (R47, R48) -/

/-- The judgements of a received epoch (R48). -/
inductive Judgement where
  | equal | newer | opposite | older
  deriving DecidableEq, Repr

/-- The judgement of epoch `h` against epoch `e` by their difference modulo 65 536 (R48). -/
def judgeEpoch (h e : Epoch) : Judgement :=
  let d := (h - e).toNat
  if d = 0 then .equal
  else if d ≤ 32767 then .newer
  else if d = 32768 then .opposite
  else .older

/-! ## Own offers and the heard table -/

/-- The cab state an offer carries (R49, R159). -/
def State.offerCab (s : State) : OfferCab :=
  if s.cabEnds = .neither then .noCab
  else
    match s.port.cab with
    | .inactive => .idle
    | .activeA => .activeA
    | .activeB => .activeB

/-- The offer the station builds now (R49). -/
def State.ownOffer (s : State) : OfferFields :=
  { epoch := s.comp.epoch, endA := s.endPair .a, endB := s.endPair .b, cab := s.offerCab
    ceiling := s.grade.ceiling, payloadMax := s.payloadMax }

/-- The heard table's entry of an identity. -/
def findEntry (id : Identity) (table : List HeardEntry) : Option HeardEntry :=
  table.find? fun x => x.id = id

/-- The heard table with the entry of an identity changed. -/
def mapTable (id : Identity) (f : HeardEntry → HeardEntry) (table : List HeardEntry) :
    List HeardEntry :=
  table.map fun x => if x.id = id then f x else x

/-- The own entry as a newly built offer makes it (R57). -/
def State.ownEntry (s : State) : HeardEntry := ⟨s.identity, s.ownOffer, none⟩

/-- The engine builds an offer: the own entry of the table is refreshed with it, its confirmed digest is
cleared, and the offer is handed to the composition slot (R49, R57). -/
def State.buildOffer (s : State) : State :=
  (s.setComp { s.comp with table := mapTable s.identity (fun _ => s.ownEntry) s.comp.table }).handIn
    (.offer s.ownOffer)

/-- An offer of equal epoch taken into the heard table, with its result (R58, R59). -/
def State.takeOffer (src : Identity) (o : OfferFields) (s : State) : State × TableResult :=
  match findEntry src s.comp.table with
  | some x =>
    (s.setComp { s.comp with table := mapTable src (fun _ => ⟨src, o, none⟩) s.comp.table },
      if x.offer = o then .same else .changed)
  | none =>
    if s.comp.table.length < 16 then
      (s.setComp { s.comp with
        table := s.comp.table ++ [⟨src, o, none⟩], lastEntry := some s.now }, .new)
    else (s.setComp { s.comp with overflow := true }, .notStored)

/-- A confirmed digest recorded against the entry of an identity, if the table holds one (R60). -/
def State.recordConfirm (src : Identity) (d : Digest) (s : State) : State :=
  s.setComp { s.comp with table := mapTable src (fun x => { x with confirmed := some d }) s.comp.table }

/-- The confirmed digest of an identity's entry cleared (R76). -/
def State.clearConfirm (src : Identity) (s : State) : State :=
  s.setComp { s.comp with table := mapTable src (fun x => { x with confirmed := none }) s.comp.table }

/-! ## Rounds and triggers (R64 to R68) -/

/-- The presence duty ends: the schedule stops and the member watch is set aside (R63). -/
def Comp.endDuty (c : Comp) : Comp := { c with presenceDue := none, watch := [] }

/-- The LIMP retry expiry that is still to be taken when the engine enters QUIET at an instant: the timer is
stopped, but an expiry due by then falls together with the trigger that stops it (R81; log 36). -/
def Comp.retryLeft (c : Comp) (now : Ticks) : Option Ticks :=
  match c.retryDue with
  | some d => if d ≤ now then some now else none
  | none => c.retryFell

/-- The LIMP retry timer stopped, with no expiry of it left to take (R81). -/
def Comp.stopRetry (c : Comp) : Comp := { c with retryDue := none, retryFell := none }

/-- Entry into QUIET: the hold is started, the timers of the state left are stopped, and a foreground round
ends the presence duty (R63, R69, R81). -/
def State.enterQuiet (s : State) : State :=
  let c := { s.comp with
    state := .quiet, holdDue := some (s.now + Config.quietHold), cadenceDue := none
    retryDue := none, retryFell := s.comp.retryLeft s.now, offerDone := false }
  s.setComp (if s.currentIsLimp then c else c.endDuty)

/-- A change of the epoch, raised or adopted, with its effects on the heard table (R61) and on the round
(R68), and the entry into QUIET that follows. An offer built at the instant of a ceiling change and not yet started
leaves the slot by R68, although R119 says that it goes out (log 37). -/
def State.changeEpoch (e : Epoch) (s : State) : State :=
  let s1 := (s.setComp { s.comp with
    epoch := e, pendingRoster := none, disagreements := 0
    deadlineDue := some (s.now + Config.roundDeadline), cadenceDue := none
    overflow := false, lastEntry := some s.now, ownSent := 0 }).setBus { s.bus with slot := none }
  (s1.setComp { s1.comp with table := [s1.ownEntry] }).enterQuiet

/-- The reason of a trigger taken is recorded (R64). -/
def State.recordReason (r : Reason) (s : State) : State := s.setComp { s.comp with reason := r }

/-- The epoch raised by one, modulo 65 536 (R47). -/
def State.raiseEpoch (s : State) : State := s.changeEpoch (s.comp.epoch + 1)

/-- A local trigger, ROUND FAILED apart, handled in the present composition state (R62, R64 to R67). -/
def State.trigger (r : Reason) (s : State) : State :=
  match s.comp.state with
  | .idle => if r = .start then (s.recordReason r).raiseEpoch else s
  | .halted => s
  | .quiet =>
    if r = .chain ∨ r = .parting then
      (s.recordReason r).setComp { (s.recordReason r).comp with
        holdDue := some (s.now + Config.quietHold) }
    else (s.recordReason r).raiseEpoch
  | .offer | .confirm | .settled | .limp => (s.recordReason r).raiseEpoch

/-- The NEWER EPOCH trigger: the heard epoch is adopted (R65 to R67). -/
def State.adoptEpoch (h : Epoch) (s : State) : State := (s.recordReason .newerEpoch).changeEpoch h

/-! ## Adoption (R82) -/

/-- The members of a roster, watched from an instant (R87). -/
def watchOf (r : Roster) (own : Identity) (t : Ticks) : List Watched :=
  (r.heardIds.filter fun id => id ≠ own).map fun id => ⟨id, t⟩

/-- Adoption of a roster, into LIMP or into SETTLED, in the order of R82. -/
def State.adopt (limp : Bool) (r : Roster) (s : State) : State :=
  let s1 := s.setComp { s.comp with
    previous := match s.comp.current with
      | some cur => some cur
      | none => s.comp.previous
    current := some r
    pendingRoster := none }
  let s2 := s1.renamePass
  let s3 := s2.setBus { s2.bus with cargoGrade := r.jointGrade }
  let s4 := s3.setComp { s3.comp with
    state := if limp then .limp else .settled
    holdDue := none
    cadenceDue := none
    deadlineDue := none
    presenceDue := some (s3.now + Config.presenceStagger * r.ownPos)
    watch := watchOf r s3.identity s3.now
    failed := if limp then s3.comp.failed else 0
    retryDue := if limp then some (s3.now + Config.limpRetry) else none
    retryFell := none }
  ((s4.notify .adopted).notifyIf r.cabConflict .cabConflict).notifyIf limp .limp

/-- LIMP entry: the limp roster is built from the heard table as it stands and adopted at once (R80). -/
def State.enterLimp (s : State) : State :=
  let own := (findEntry s.identity s.comp.table).getD s.ownEntry
  s.adopt true (limpRoster s.comp.table s.comp.current s.comp.epoch own)

/-- ROUND FAILED (R79). -/
def State.roundFailed (s : State) : State :=
  let s1 := s.setComp { s.comp with
    reason := .roundFailed, failed := min 255 (s.comp.failed + 1) }
  if s1.comp.failed < 3 then s1.raiseEpoch else s1.enterLimp

/-- Every HEARD entry of a roster has confirmed its digest (R77). -/
def allConfirmed (r : Roster) (table : List HeardEntry) : Bool :=
  r.heardIds.all fun id =>
    match findEntry id table with
    | some x => x.confirmed = some r.digest
    | none => false

/-- The adoption check (R77). -/
def State.checkAdoption (s : State) : State :=
  match s.comp.pendingRoster with
  | some r => if allConfirmed r s.comp.table then s.adopt false r else s
  | none => s

/-- The engine builds its own confirm while a pending roster exists: the digest is recorded in the own
entry, the confirm is handed in, the cadence restarts, and the adoption check follows (R51, R74, R77). -/
def State.ownConfirm (s : State) : State :=
  match s.comp.pendingRoster with
  | none => s
  | some r =>
    let s1 := (s.recordConfirm s.identity r.digest).handIn (.confirm s.comp.epoch r.digest r.ownPos)
    (s1.setComp { s1.comp with cadenceDue := some (s.now + Config.cadence) }).checkAdoption

/-- Entry into OFFER: any pending roster is discarded, an offer is built at once and the cadence timer is
started (R70, R75). The conditions of R71 cannot hold yet: no own offer has completed since. -/
def State.enterOffer (s : State) : State :=
  (s.setComp { s.comp with
    state := .offer, offerDone := false, pendingRoster := none, holdDue := none
    cadenceDue := some (s.now + Config.cadence) }).buildOffer

/-- The three conditions under which OFFER attempts placement (R71). -/
def State.placementDue (s : State) : Bool :=
  s.comp.state = .offer && 3 ≤ s.comp.ownSent && s.comp.offerDone &&
    ((match findEntry s.identity s.comp.table with
      | some x =>
        s.comp.table.length = x.offer.endA.report.count + x.offer.endB.report.count + 1
      | none => false) ||
     (match s.comp.lastEntry with
      | some t => t + Config.lastEntryTime ≤ s.now
      | none => false))

/-- Placement is attempted as soon as its conditions hold (R71, R72). -/
def State.tryPlacement (s : State) : State :=
  if s.placementDue then
    match place s.comp.table s.comp.overflow s.comp.current s.comp.epoch s.identity with
    | .success r => (s.setComp { s.comp with state := .confirm, pendingRoster := some r }).ownConfirm
    | .conflict | .unplaced | .overflow => s.roundFailed
    | .tooLong => s.enterLimp
  else s

/-! ## Working under a roster (R83 to R87) -/

/-- The answering confirm: own epoch, current digest, own position (R83). -/
def State.answerConfirm (s : State) : State :=
  match s.comp.current with
  | some r => s.handIn (.confirm s.comp.epoch r.digest r.ownPos)
  | none => s

/-- A station is a member of the current roster (section 4.9). -/
def State.isMember (s : State) (id : Identity) : Bool :=
  match s.comp.current with
  | some r => r.isMember s.identity id
  | none => false

/-- A well-formed composition frame notes its sender as heard: a watched member's instant moves (R54,
R87). -/
def State.noteHeard (src : Identity) (s : State) : State :=
  s.setComp { s.comp with
    watch := s.comp.watch.map fun w => if w.id = src then { w with heard := s.now } else w }

/-- The presence interval of the current roster (R85). -/
def State.interval (s : State) : Ticks :=
  match s.comp.current with
  | some r => presenceInterval r.n
  | none => presenceInterval 1

/-! ## Received frames (R53 to R55, R73, R75, R76, R83, R84, R86) -/

/-- What the state makes of an offer of the own epoch that the table has taken (R69, R73, R75, R83,
R84). -/
def State.afterOffer (src : Identity) (result : TableResult) (s : State) : State :=
  match s.comp.state with
  | .idle | .quiet | .halted => s
  | .offer => if result = .new then s.tryPlacement else s
  | .confirm => if result = .same then s else s.enterOffer
  | .settled | .limp =>
    if s.isMember src then s.answerConfirm
    else if result = .new ∨ result = .notStored then s.trigger .strangerOffer
    else s

/-- A received offer, judged by its epoch (R54). -/
def State.receiveOffer (src : Identity) (o : OfferFields) (s : State) : State :=
  match judgeEpoch o.epoch s.comp.epoch with
  | .equal =>
    let (s1, result) := s.takeOffer src o
    s1.afterOffer src result
  | .newer => ((s.adoptEpoch o.epoch).takeOffer src o).1
  | .opposite | .older => s.count .stale

/-- A member's disagreement in CONFIRM (R76). -/
def State.disagree (s : State) : State :=
  let s1 := s.setComp { s.comp with disagreements := min 2 (s.comp.disagreements + 1) }
  if s1.comp.disagreements = 1 then s1.enterOffer else s1.roundFailed

/-- What the state makes of a confirm of the own epoch, recorded already; `before` is the sender's entry as
it stood before the recording (R69, R73, R76, R83, R84). -/
def State.afterConfirm (src : Identity) (d : Digest) (position : Nat) (before : Option HeardEntry)
    (s : State) : State :=
  match s.comp.state with
  | .idle | .quiet | .offer | .halted => s
  | .confirm =>
    match s.comp.pendingRoster with
    | none => s
    | some r =>
      if r.isMember s.identity src then
        if d = r.digest then
          if r.posOf src = some position then s.checkAdoption
          else (s.clearConfirm src).disagree
        else s.disagree
      else s
  | .settled | .limp =>
    if s.isMember src then
      if before.bind HeardEntry.confirmed = s.comp.current.map Roster.digest then s
      else s.answerConfirm
    else if before.isNone then s.trigger .strangerOffer
    else s

/-- A received confirm, judged by its epoch (R55). -/
def State.receiveConfirm (src : Identity) (e : Epoch) (d : Digest) (position : Nat) (s : State) :
    State :=
  match judgeEpoch e s.comp.epoch with
  | .equal =>
    (s.recordConfirm src d).afterConfirm src d position (findEntry src s.comp.table)
  | .newer => s.adoptEpoch e
  | .opposite | .older => s

/-- The check of a presence of the current roster's epoch (R86). -/
def State.checkPresence (src : Identity) (d : Digest) (r : Roster) (s : State) : State :=
  if s.dutyHeld then
    if s.isMember src then
      if d ≠ r.digest ∧ s.comp.state = .settled then s.trigger .digestMismatch else s
    else s.count .stranger
  else s

/-- A received presence (R55). One both newer than the own epoch and of the current roster's epoch, which an own
epoch carried past half the range in a background round allows, is taken as newer first (log 32). -/
def State.receivePresence (src : Identity) (e : Epoch) (d : Digest) (s : State) : State :=
  if judgeEpoch e s.comp.epoch = .newer then s.adoptEpoch e
  else
    match s.comp.current with
    | some r => if e = r.epoch then s.checkPresence src d r else s
    | none => s

/-- A composition frame delivered to the engine: discarded in IDLE and HALTED and where malformed, else
noted as heard and judged (R53 to R55, R62). -/
def State.deliverComp (f : Frame) (s : State) : State :=
  if s.comp.state = .idle ∨ s.comp.state = .halted ∨ f.source = 0 then s
  else
    match compFrameOfBody? f.cls f.body with
    | none => s
    | some (.offer o) => (s.noteHeard f.source).receiveOffer f.source o
    | some (.confirm e d p) => (s.noteHeard f.source).receiveConfirm f.source e d p
    | some (.presence e d) => (s.noteHeard f.source).receivePresence f.source e d

/-! ## HALTED (R88) -/

/-- The engine enters HALTED: the pending roster is discarded, every timer stopped and the watch set aside;
the rest is kept (R88). -/
def State.halt (s : State) : State :=
  s.setComp { s.comp with
    state := .halted, pendingRoster := none, holdDue := none, cadenceDue := none
    deadlineDue := none, retryDue := none, retryFell := none, presenceDue := none, watch := [] }

end Sys2Proof.Machine
end

