-- ==== Sys2Proof/Machine/ChainOps.lean ====
section
/-! DEFINITION. The chain units: period judgement, the decoder's transitions, and chain changes with what
they set off (chapter 1). -/

namespace Sys2Proof.Machine

/-! ## Judging a period (R9, R10) -/

/-- The class of a period, by its length in ticks (R9). -/
def periodClass (p : Nat) : Option End :=
  if 2700 ≤ p ∧ p ≤ 3060 then some .a
  else if 3300 ≤ p ∧ p ≤ 3740 then some .b
  else none

/-- The quarter-step value m of a period of a class (R10). -/
def quarterSteps (c : End) (p h : Nat) : Nat := (4 * periodSteps c * h + p / 2) / p

/-- The candidate of a completed period; `none` where it is unclear or out of range (R9, R10). -/
def candidateOf (p h : Nat) : Option Candidate :=
  match periodClass p with
  | none => none
  | some c =>
    let m := quarterSteps c p h
    if m % 4 = 2 ∨ m < 7 ∨ 69 < m then none else some ⟨c, (m + 1) / 4 - 1⟩

/-! ## Decoder transitions (R12 to R20) -/

/-- The first valid period in OPEN, in PARTING, or in FAULT of reason STUCK HIGH: ACQUIRING with a run of 1
(R12, R17, R18). -/
def Decoder.acquire (c : Candidate) (d : Decoder) : Decoder :=
  { d with state := .acquiring, cand := some c, run := 1, unclear := 0, fault := none }

/-- A valid period in ACQUIRING, HELD, or FAULT of reason UNCLEAR (R13). -/
def Decoder.compare (k : Nat) (c : Candidate) (d : Decoder) : Decoder :=
  let run := if d.cand = some c then min k (d.run + 1) else 1
  let d1 := { d with cand := some c, run := run, unclear := 0 }
  if k ≤ run then { d1 with state := .held, held := some c, fault := none } else d1

/-- A valid period, taken in the present state. -/
def Decoder.takeValid (k : Nat) (c : Candidate) (d : Decoder) : Decoder :=
  match d.state with
  | .openLine | .parting => d.acquire c
  | .acquiring | .held => d.compare k c
  | .fault => if d.fault = some .stuckHigh then d.acquire c else d.compare k c
  | .isolated => d

/-- An unclear or out-of-range period (R14). -/
def Decoder.takeUnclear (d : Decoder) : Decoder :=
  let unclear := min 16 (d.unclear + 1)
  let d1 := { d with run := 0, cand := none, unclear := unclear }
  match d.state with
  | .openLine | .acquiring | .held | .parting =>
    if unclear = 16 then { d1 with state := .fault, held := none, fault := some .unclear } else d1
  | .fault => if unclear = 16 then { d1 with fault := some .unclear } else d1
  | .isolated => d

/-- A completed period is judged and taken in the present state (R9 to R14). -/
def Decoder.judge (k p h : Nat) (d : Decoder) : Decoder :=
  match candidateOf p h with
  | some c => d.takeValid k c
  | none => d.takeUnclear

/-- A rising edge at instant `t` begins a period and a high interval (R8). -/
def Decoder.rise (t : Ticks) (d : Decoder) : Decoder :=
  { d with measure := some ⟨t, none⟩, levelFrom := t, highFrom := none }

/-- The falling edge of the period being measured, at instant `t` (R8). -/
def Decoder.fall (t : Ticks) (d : Decoder) : Decoder :=
  { d with measure := d.measure.map fun m => { m with fall := some t } }

/-- The rising edge at instant `t` that completes a measurement: P and H are taken from its edges, the period
is judged, and the next one begins (R8). Without both edges it completes nothing. -/
def Decoder.complete (k : Nat) (t : Ticks) (d : Decoder) : Decoder :=
  match d.measure with
  | some ⟨r, some f⟩ => (d.judge k (t - r) (f - r)).rise t
  | _ => d.rise t

/-- A completed period of `p` ticks with high time `h`, its completing edge at instant `t` (R8). -/
def Decoder.takePeriod (k p h : Nat) (t : Ticks) (d : Decoder) : Decoder :=
  if d.state = .isolated then d
  else (({ d with measure := some ⟨t - p, none⟩ } : Decoder).fall (t - p + h)).complete k t

/-- A high part and a low part in which neither parting is sensed nor loss detected: a longer one discards
the measurement, and no period completes from it (R8, R15, R16). -/
def periodCompletes (p h : Nat) : Bool :=
  0 < h && h < p && h < Config.partingTime && p - h < Config.lossTime

/-- Loss, at instant `t` (R15). The run candidate goes with the run (log 22). -/
def Decoder.lose (t : Ticks) (d : Decoder) : Decoder :=
  if d.state = .isolated then d else Decoder.fresh t

/-- Parting sensed, at instant `t`, 2.0 ms after the rising edge of the high interval: the held value is kept
(R16; log 22). Parting sensed again in PARTING sets run and unclear run to 0 like any other (log 31). -/
def Decoder.part (t : Ticks) (d : Decoder) : Decoder :=
  if d.state = .isolated then d
  else
    { d with state := .parting, cand := none, run := 0, unclear := 0, fault := none
             measure := none, levelFrom := t, highFrom := some (t - Config.partingTime) }

/-- Stuck high, at instant `t`: a decoder in PARTING enters FAULT (R17). -/
def Decoder.stick (t : Ticks) (d : Decoder) : Decoder :=
  if d.state = .parting then
    { d with state := .fault, held := none, cand := none, run := 0, unclear := 0
             fault := some .stuckHigh, measure := none, levelFrom := t, highFrom := none }
  else d

/-- Isolation set: the decoder is ISOLATED with its state cleared (R20). -/
def Decoder.isolate (t : Ticks) (d : Decoder) : Decoder :=
  if d.state = .isolated then d else { Decoder.fresh t with state := .isolated }

/-- Isolation lifted: the decoder is OPEN and its durations count from this instant (R20). -/
def Decoder.unisolate (t : Ticks) (d : Decoder) : Decoder :=
  if d.state = .isolated then Decoder.fresh t else d

/-! ## Chain changes (R4, R23) -/

/-- What a change of end `e`'s report from `before` sets off: the other end's pending code and mark, the
CHAIN and PARTING notices, and the trigger to the composition engine (R4, R23). -/
def State.chainChanged (e : End) (before : Triple) (s : State) : State :=
  let after := s.report e
  if after = before then s
  else
    let o := s.chain e.other
    let s1 := s.setChain e.other { o with drv := o.drv.follow after.count }
    let parting : Bool := after.state = .parting && before.state ≠ .parting
    let s2 := (s1.notify .chain).notifyIf parting .parting
    s2.trigger (if parting then .parting else .chain)

/-- A chain unit changed, with the drive conditions, the FAULT notice and the chain change that follow (R6,
R23). -/
def State.changeUnit (e : End) (f : ChainUnit → ChainUnit) (s : State) : State :=
  let before := s.report e
  let u := s.chain e
  let v := f u
  let s1 := (s.setChain e v).syncDrive e
  let s2 := s1.notifyIf (v.dec.state = .fault && u.dec.state ≠ .fault) .fault
  s2.chainChanged e before

/-- A decoder event of an end; in UNCONFIGURED the decoders take nothing from their pins (R24). -/
def State.decoderEvent (e : End) (f : Decoder → Decoder) (s : State) : State :=
  if s.started then s.changeUnit e fun u => { u with dec := f u.dec } else s

end Sys2Proof.Machine
end

