-- ==== Sys2Proof/Machine/BusOps.lean ====
section
/-! DEFINITION. The bus controller: selection and start of an own frame, the hand-back of a cut-off frame,
receptions and their judgement, clashes, rests and the stop (chapter 2, chapter 9). -/

namespace Sys2Proof.Machine

/-! ## Selection and start (R31, R32, R129, R130) -/

/-- The frame selected at an idle: the slot's, else the router's head candidate, with the removals naming
it makes (R31, R129). A SILENCED controller no longer asks the router (R41). -/
def State.select (s : State) : State × Option Selection :=
  match s.bus.slot with
  | some _ => (s, some .comp)
  | none =>
    if s.bus.ctrl = .silenced then (s, none)
    else
      let (s1, x) := s.headCandidate
      (s1, x.map fun e => .cargo e.ticket)

/-- The bus frame of a composition frame: its body is sent at G1 (R30, R174). -/
def State.compBusFrame (s : State) (f : CompFrame) : Frame :=
  { cls := f.cls, source := s.identity, grade := .g1, body := f.body }

/-- The start bit of an own frame is sent (R31). -/
def State.transmit (t : Tx) (s : State) : State :=
  s.setBus { s.bus with
    ctrl := .transmitting, idle := false, idleDue := none, intermissionEnd := none
    selected := none, tx := some t }

/-- The start bit of the selected frame is sent: a composition frame leaves the slot (log 13), and a cargo
entry goes in flight with its content fixed (R31, R130). -/
def State.startFrame (sel : Selection) (s : State) : State :=
  match sel with
  | .comp =>
    match s.bus.slot with
    | some f =>
      (s.setBus { s.bus with slot := none }).transmit ⟨s.compBusFrame f, .comp f⟩
    | none => s
  | .cargo ticket =>
    match s.entryOf ticket, s.comp.current with
    | some x, some cur =>
      (s.mapEntry ticket fun y => { y with inFlight := true }).transmit
        ⟨s.cargoFrame cur x, .cargo ticket (wireDest cur x.dest).2.2⟩
    | _, _ => s

/-- The own intermission still holds the controller back (R26). -/
def State.inIntermission (s : State) : Bool :=
  match s.bus.intermissionEnd with
  | some t => s.now < t
  | none => false

/-- At an idle the controller selects its next frame, and sends its start bit at once unless it is held
back by its own intermission, by RESTING or by SILENCED (R31, R32; log 11). -/
def State.atIdle (s : State) : State :=
  let (s1, sel) := s.select
  match sel with
  | none => s1.setBus { s1.bus with selected := none }
  | some x =>
    if s1.bus.ctrl = .listening ∧ s1.inIntermission = false then s1.startFrame x
    else s1.setBus { s1.bus with selected := some x }

/-- A composition frame waiting in the slot while the bus stays idle is selected, and sent at once where
nothing holds the controller back (R31, R32; log 10). -/
def State.sendWaiting (s : State) : State :=
  if s.bus.idle ∧ s.bus.slot.isSome then s.atIdle else s

/-! ## Ends of an own transmission (R32, R34) -/

/-- A cut-off own frame keeps its place: a composition frame returns to the slot and a cargo entry to its
queue (R32, R131). -/
def State.giveBack (o : Origin) (s : State) : State :=
  match o with
  | .comp f => s.handBack f
  | .cargo ticket _ => s.returnEntry ticket

/-- A struck own frame: a composition frame returns to the slot, and the router counts the attempt (R34,
R131). -/
def State.giveBackStruck (o : Origin) (s : State) : State :=
  match o with
  | .comp f => s.handBack f
  | .cargo ticket _ => s.strikeEntry ticket

/-! ## The stop (R41, R155, R171) -/

/-- The stop: the controller is SILENCED with its slot emptied and its rest timer stopped, the part state is
SILENCED, the engine HALTED and the transmit queue flushed (R41, R171). -/
def State.stop (s : State) : State :=
  let s1 := s.setBus { s.bus with ctrl := .silenced, slot := none, restDue := none, selected := none }
  let s2 := (s1.setPort { s1.port with part := .silenced }).notify .silenced
  s2.halt.flush

/-- An earlier instant lies within 10 s of now (R35, R40). -/
def State.recent (s : State) (t : Option Ticks) : Bool :=
  match t with
  | some x => s.now ≤ x + Config.escalationWindow
  | none => false

/-- What the sixteenth strike leads to: a rest, or the stop where the previous rest began within 10 s
(R35). -/
def State.restOrStop (s : State) : State :=
  if s.recent s.bus.latestRest then s.stop
  else
    (s.setBus { s.bus with
      ctrl := .resting, latestRest := some s.now, restDue := some (s.now + Config.restTime) }).notify
      .resting

/-! ## Receptions (R36 to R40) -/

/-- A clash: a first one, or a second within 10 s that stops the part; none in SILENCED (R40). -/
def State.clash (s : State) : State :=
  if s.bus.ctrl = .silenced then s
  else if s.recent s.bus.firstClash then s.stop
  else ((s.setBus { s.bus with firstClash := some s.now }).notify .clash).trigger .clash

/-- A complete valid frame: a clash where it carries the own identity, else delivered by its class (R39,
R40). -/
def State.deliver (f : Frame) (s : State) : State :=
  if f.source = s.identity then s.clash
  else if f.cls ≤ 3 then s.deliverComp f
  else s.deliverCargo f

/-- The end of a reception: RECEIVING becomes LISTENING; RESTING and SILENCED stay (R36, R42). -/
def State.endReception (s : State) : State :=
  s.setBus { s.bus with
    rx := none, ctrl := if s.bus.ctrl = .receiving then .listening else s.bus.ctrl }

/-- The counter of a receive error (R38). -/
def RxError.counter : RxError → CounterName
  | .format => .format
  | .stuff => .stuff
  | .crc => .crc
  | .truncated => .truncation

/-- What the receiver has made of the bits takes effect (R36 to R40). -/
def State.takeReception (r : RxResult) (s : State) : State :=
  match r with
  | .more rx => s.setBus { s.bus with rx := some rx }
  | .skip => s.endReception.count .gradeSkip
  | .error e => (s.endReception.count e.counter).reportError
  | .complete f => s.endReception.deliver f

/-- The idle count stands so that the bus can be idle in `t` ticks and not before (R26). -/
def State.idleIn (t : Ticks) (s : State) : State :=
  s.setBus { s.bus with idleDue := some (s.now + t) }

/-- A receiver takes wire bits: the idle count follows their levels, and what the receiver makes of them takes
effect (R26, R36 to R40). -/
def State.receive (r : Rx) (bits : List Bool) (s : State) : State :=
  (s.idleIn (r.idleAfter s.permitted bits)).takeReception (r.feed s.permitted bits)

/-- The station goes on as a receiver of the frame it was sending, from bit `k`, using the bits it has read
(R32, R34, R36). -/
def State.receiveOwn (f : Frame) (k : Nat) (s : State) : State := s.receive .afterStart (f.readBack k)

/-- Own dominant bit `k` has been read recessive, and the station waits for idle (R26, R32, R34). A start bit
read recessive leaves the bus idle: no dominant level has been seen (log 33). -/
def State.awaitIdle (f : Frame) (k : Nat) (s : State) : State :=
  if k = 0 then s.setBus { s.bus with idle := true, idleDue := none }
  else s.idleIn (f.idleAfter k)

end Sys2Proof.Machine
end

