-- ==== Sys2Proof/Machine/BusEvents.lean ====
section
/-! DEFINITION. The events of the bus controller (chapter 2). One that cannot arise in the present state
changes nothing (log 3). -/

namespace Sys2Proof.Machine

/-- The controller watches the bus level between frames: every state but OFF and TRANSMITTING (R26,
R42). -/
def Bus.watches (b : Bus) : Bool :=
  match b.ctrl with
  | .off | .transmitting => false
  | .listening | .receiving | .resting | .silenced => true

/-- The clock moved on to an instant that may be stopped (log 2). -/
def State.advanceToDue (t : Option Ticks) (s : State) : State :=
  match t with
  | some x => s.advanceTo x
  | none => s

/-- What idle makes of a reception in progress (R26, R38; log 9). -/
def State.idleReception (s : State) : State :=
  match s.bus.rx with
  | some r => s.takeReception (r.atIdle s.permitted)
  | none => s

/-- BUS IDLE (R26, R31, R32): the idle count reaches 11 G1 bit times, no earlier than the latest dominant level
allows. It may be taken again while the bus stays idle (log 10). -/
def execBusIdle (s : State) : Host.Outcome State Fault Refusal :=
  if s.bus.watches ∧ (s.bus.idle ∨ s.bus.idleDue.isSome) then
    let s1 := (s.advanceToDue s.bus.idleDue).idleReception
    .next (s1.setBus { s1.bus with idle := true, idleDue := none }).atIdle
  else .next s

/-- START BIT SEEN: from idle a reception begins, and before idle the count begins again (R26, R32, R36). That a
station which has not yet reached idle receives no frame is R26's word against the last sentence of R32 (log 35). -/
def execStartBitSeen (s : State) : Host.Outcome State Fault Refusal :=
  if s.bus.watches ∧ s.bus.rx = none then
    if s.bus.idle then
      .next (s.setBus { s.bus with
        ctrl := if s.bus.ctrl = .listening then .receiving else s.bus.ctrl
        idle := false, idleDue := some (s.now + Config.idleTime), intermissionEnd := none
        selected := none, rx := some .afterStart })
    else .next (s.setBus { s.bus with idleDue := some (s.now + Config.idleTime) })
  else .next s

/-- FRAME RECEIVED: the bits sampled since those taken already (R36 to R40; log 7). -/
def execFrameReceived (bits : List Bool) (s : State) : Host.Outcome State Fault Refusal :=
  match s.bus.rx with
  | some r => .next (s.receive r bits)
  | none => .next s

/-- The station stops driving (R32, R34). -/
def State.stopDriving (s : State) : State :=
  s.setBus { s.bus with ctrl := .listening, tx := none }

/-- The station goes on as a receiver: LISTENING becomes RECEIVING (R36). -/
def State.beginReceiving (s : State) : State :=
  s.setBus { s.bus with ctrl := if s.bus.ctrl = .listening then .receiving else s.bus.ctrl }

/-- LOST ARBITRATION at the own recessive wire bit `bit` (R32; log 8). -/
def execLostArbitration (bit : Nat) (s : State) : Host.Outcome State Fault Refusal :=
  match s.bus.tx with
  | none => .next s
  | some t =>
    if bit < t.frame.arbitrationLength ∧ t.frame.wireBits[bit]? = some true then
      .next (((s.stopDriving.giveBack t.origin).beginReceiving).receiveOwn t.frame bit)
    else .next s

/-- DOMINANT READ RECESSIVE at the own dominant wire bit `bit`, during arbitration (R32; log 8). -/
def execDominantReadRecessive (s : State) (bit : Nat := 0) : Host.Outcome State Fault Refusal :=
  match s.bus.tx with
  | none => .next s
  | some t =>
    if bit < t.frame.arbitrationLength ∧ t.frame.wireBits[bit]? = some false then
      .next ((s.stopDriving.giveBack t.origin).awaitIdle t.frame bit)
    else .next s

/-- A strike counted (R34, R115). -/
def State.countStrike (s : State) : State :=
  (s.setBus { s.bus with strikes := min 16 (s.bus.strikes + 1) }).reportError

/-- The effects of a strike but for the reception that may follow it (R34, R35, R131). -/
def State.struck (o : Origin) (s : State) : State :=
  let s1 := s.stopDriving.countStrike.giveBackStruck o
  if s1.bus.strikes = 16 then s1.restOrStop else s1

/-- STRIKE at the own wire bit `bit` after the arbitration field (R34; log 8). -/
def execStrike (bit : Nat) (s : State) : Host.Outcome State Fault Refusal :=
  match s.bus.tx with
  | none => .next s
  | some t =>
    if t.frame.arbitrationLength ≤ bit ∧ bit < t.frame.wireBits.length then
      let s1 := s.struck t.origin
      if t.frame.wireBits[bit]? = some true then .next (s1.beginReceiving.receiveOwn t.frame bit)
      else .next (s1.awaitIdle t.frame bit)
    else .next s

/-- From the sample point of the last end-field bit to the end of the intermission: a quarter of a G1 bit
and three G1 bits (R25, R26, R27; log 12). -/
def intermissionTime : Ticks := Config.g1AfterSample + 3 * Config.g1Bit

/-- The bus controller's part of a clean completion (R33, R34). -/
def State.completeOwn (f : Frame) (s : State) : State :=
  s.stopDriving.setBus { s.stopDriving.bus with
    strikes := s.bus.strikes - 1
    idle := false
    idleDue := some (s.now + f.idleAfter (f.wireBits.length - 1))
    intermissionEnd := some (s.now + intermissionTime) }

/-- A completed own offer: counted where it has the own epoch, and noted in OFFER (R50, R71; log 15). -/
def State.offerSent (epoch : Epoch) (s : State) : State :=
  (s.setComp { s.comp with
    ownSent := if epoch = s.comp.epoch then min 255 (s.comp.ownSent + 1) else s.comp.ownSent
    offerDone := s.comp.offerDone || s.comp.state = .offer }).tryPlacement

/-- The completion of an own frame reported to its owner (R33, R50, R131). -/
def State.reportCompletion (o : Origin) (s : State) : State :=
  match o with
  | .comp (.offer f) => s.offerSent f.epoch
  | .comp (.confirm _ _ _) => s
  | .comp (.presence _ _) => s
  | .cargo ticket finalPos => s.removeEntry ticket .sent finalPos

/-- CLEAN COMPLETION (R33). -/
def execCleanCompletion (s : State) : Host.Outcome State Fault Refusal :=
  match s.bus.tx with
  | none => .next s
  | some t => .next ((s.completeOwn t.frame).reportCompletion t.origin)

/-- REST TIMER EXPIRY (R35). -/
def execRestTimerExpiry (s : State) : Host.Outcome State Fault Refusal :=
  match s.bus.restDue with
  | none => .next s
  | some t =>
    if s.bus.ctrl = .resting then
      .next ((s.advanceTo t).setBus { s.bus with
        ctrl := if s.bus.rx.isSome then .receiving else .listening
        strikes := 8, restDue := none })
    else .next s

/-- INTERMISSION PASSED: on a bus that became idle before, the controller sends now (R26, R31, R32). -/
def execIntermissionPassed (s : State) : Host.Outcome State Fault Refusal :=
  match s.bus.intermissionEnd with
  | none => .next s
  | some t =>
    let s1 := (s.advanceTo t).setBus { s.bus with intermissionEnd := none }
    if s1.bus.idle ∧ s1.bus.ctrl = .listening then .next s1.atIdle else .next s1

end Sys2Proof.Machine
end

