-- ==== Sys2Proof/Machine/ChainEvents.lean ====
section
/-! DEFINITION. The events of the chain units (chapter 1). A timed event moves the clock to the instant it
is due, and one that cannot arise in the present state changes nothing (log 2, log 3). -/

namespace Sys2Proof.Machine

/-- The decoder of an end judges its sense pin (R20, R24). -/
def State.senses (s : State) (e : End) : Bool := s.started && (s.chain e).dec.state ≠ .isolated

/-- PERIOD BOUNDARY: the pending code is loaded and the next period begins (R3, R5). No boundary occurs while
a drive condition stops the period count (R6). -/
def execPeriodBoundary (e : End) (s : State) : Host.Outcome State Fault Refusal :=
  let u := s.chain e
  match u.drv.periodFrom with
  | none => .next s
  | some t =>
    let due := t + Config.chainStep * periodSteps e
    .next ((s.advanceTo due).setChain e
      { u with drv := { u.drv with loaded := u.drv.pending, periodFrom := some due } })

/-- COMPLETED PERIOD of `p` ticks with a high time of `h` (R8 to R14): it comes no earlier than `p` ticks after
the first edge that can begin it. -/
def execCompletedPeriod (e : End) (p h : Nat) (s : State) : Host.Outcome State Fault Refusal :=
  if s.senses e ∧ periodCompletes p h then
    let s1 := s.advanceTo ((s.chain e).dec.levelFrom + p)
    .next (s1.decoderEvent e (Decoder.takePeriod s1.k p h s1.now))
  else .next s

/-- LOSS: 3.0 ms of steady low, in an interval in which it has not been detected (R15). -/
def execLoss (e : End) (s : State) : Host.Outcome State Fault Refusal :=
  if s.senses e then
    let s1 := s.advanceTo ((s.chain e).dec.levelFrom + Config.lossTime)
    .next (s1.decoderEvent e (Decoder.lose s1.now))
  else .next s

/-- PARTING SENSED: 2.0 ms of steady high, in an interval in which it has not been sensed (R16, R18). -/
def execPartingSensed (e : End) (s : State) : Host.Outcome State Fault Refusal :=
  if s.senses e then
    let s1 := s.advanceTo ((s.chain e).dec.levelFrom + Config.partingTime)
    .next (s1.decoderEvent e (Decoder.part s1.now))
  else .next s

/-- STUCK HIGH, 3.0 s after the rising edge of the interval in which PARTING was entered (R17). It arises in
PARTING alone, and once for each interval (R18). -/
def execStuckHigh (e : End) (s : State) : Host.Outcome State Fault Refusal :=
  match (s.chain e).dec.highFrom with
  | none => .next s
  | some t =>
    if s.started ∧ (s.chain e).dec.state = .parting then
      let s1 := s.advanceTo (t + Config.stuckTime)
      .next (s1.decoderEvent e (Decoder.stick s1.now))
    else .next s

/-- RELEASE ASSERTED (R2, R21). -/
def execReleaseAsserted (e : End) (s : State) : Host.Outcome State Fault Refusal :=
  .next (s.changeUnit e fun u => { u with release := true })

/-- RELEASE DEASSERTED (R2, R21). -/
def execReleaseDeasserted (e : End) (s : State) : Host.Outcome State Fault Refusal :=
  .next (s.changeUnit e fun u => { u with release := false })

end Sys2Proof.Machine
end

