-- ==== Sys2Proof/Machine/CompositionEvents.lean ====
section
/-! DEFINITION. The timers of the composition engine (chapter 4). An expiry moves the clock to the instant it
is due, and the expiry of a stopped timer changes nothing (log 2, log 3). -/

namespace Sys2Proof.Machine

/-- QUIET HOLD END (R69, R70). -/
def execQuietHoldEnd (s : State) : Host.Outcome State Fault Refusal :=
  match s.comp.holdDue with
  | none => .next s
  | some t =>
    if s.comp.state = .quiet then .next (s.advanceTo t).enterOffer.sendWaiting else .next s

/-- The cadence timer started again (R70). -/
def State.restartCadence (s : State) : State :=
  s.setComp { s.comp with cadenceDue := some (s.now + Config.cadence) }

/-- CADENCE TIMER: a further offer in OFFER, a further confirm in CONFIRM (R70, R74). -/
def execCadenceTimer (s : State) : Host.Outcome State Fault Refusal :=
  match s.comp.cadenceDue with
  | none => .next s
  | some t =>
    if s.comp.state = .offer then .next (s.advanceTo t).restartCadence.buildOffer.sendWaiting
    else if s.comp.state = .confirm then .next (s.advanceTo t).ownConfirm.sendWaiting
    else .next s

/-- LAST ENTRY TIMEOUT: 160 ms without a new identity (R71). -/
def execLastEntryTimeout (s : State) : Host.Outcome State Fault Refusal :=
  match s.comp.lastEntry with
  | none => .next s
  | some t =>
    if s.comp.state = .offer then .next (s.advanceTo (t + Config.lastEntryTime)).tryPlacement.sendWaiting
    else .next s

/-- ROUND DEADLINE (R78, R79). A trigger taken before it at one instant restarts the deadline, and no round fails then
(log 36). -/
def execRoundDeadline (s : State) : Host.Outcome State Fault Refusal :=
  match s.comp.deadlineDue with
  | none => .next s
  | some t => if s.roundRunning then .next (s.advanceTo t).roundFailed else .next s

/-- The LIMP RETRY trigger, with nothing of the timer left (R81). -/
def State.retry (s : State) : State := (s.setComp s.comp.stopRetry).trigger .limpRetry

/-- LIMP RETRY (R81): in LIMP when the timer expires, and in the round that another trigger began at the instant on
which the expiry falls too. -/
def execLimpRetry (s : State) : Host.Outcome State Fault Refusal :=
  if s.comp.state = .limp then
    match s.comp.retryDue with
    | some t => .next (s.advanceTo t).retry
    | none => .next s
  else if s.roundRunning ∧ s.comp.retryFell = some s.now then .next s.retry
  else .next s

/-- A presence of the current roster, handed in at a point of the schedule; the next point falls one
interval after this one (R52, R85). -/
def State.buildPresence (r : Roster) (point : Ticks) (s : State) : State :=
  (s.setComp { s.comp with presenceDue := some (point + presenceInterval r.n) }).handIn
    (.presence r.epoch r.digest)

/-- PRESENCE SCHEDULE POINT (R85). -/
def execPresenceSchedulePoint (s : State) : Host.Outcome State Fault Refusal :=
  match s.comp.presenceDue, s.comp.current with
  | some t, some r =>
    if s.dutyHeld then .next ((s.advanceTo t).buildPresence r t).sendWaiting else .next s
  | _, _ => .next s

/-- A member set aside until the next adoption (R87). -/
def State.setAside (id : Identity) (s : State) : State :=
  s.setComp { s.comp with watch := s.comp.watch.filter fun w => w.id ≠ id }

/-- MEMBER LOST: not heard for three presence intervals (R87). A loss that falls together with a trigger taken first in
SETTLED is dropped: R64 has it handled in the state the other left, but R63 has set the watch aside (log 36). -/
def execMemberLost (id : Identity) (s : State) : Host.Outcome State Fault Refusal :=
  match s.comp.watch.find? (fun w => w.id = id) with
  | none => .next s
  | some w =>
    if s.dutyHeld then
      .next (((s.advanceTo (w.heard + 3 * s.interval)).setAside id).trigger .memberLost)
    else .next s

end Sys2Proof.Machine
end

