-- ==== Sys2Proof/Machine/GradeCargoEvents.lean ====
section
/-! DEFINITION. The end of a grade window (chapter 6) and the expiry of a cargo lifetime (chapter 7). -/

namespace Sys2Proof.Machine

/-- The ceiling after the judgement of a window (R117). -/
def GradeMonitor.judgedCeiling (g : GradeMonitor) : Grade :=
  if 8 ≤ g.errors then g.ceiling.down
  else if 2 ≤ g.errors then g.ceiling
  else if 30 ≤ g.upRun + 1 then (if g.ceiling.code < g.limit.code then g.ceiling.up else g.ceiling)
  else g.ceiling

/-- The up-run after the judgement of a window (R117). -/
def GradeMonitor.judgedRun (g : GradeMonitor) : Nat :=
  if 2 ≤ g.errors then 0
  else if 30 ≤ g.upRun + 1 then 0
  else g.upRun + 1

/-- The window that ends at `t` is judged and the next one starts at that instant (R116, R117). -/
def GradeMonitor.endWindow (t : Ticks) (g : GradeMonitor) : GradeMonitor :=
  { g with
    ceiling := g.judgedCeiling, upRun := g.judgedRun, errors := 0
    windowDue := some (t + Config.window) }

/-- WINDOW END: a changed ceiling sets GRADE and gives a CEILING trigger (R117, R118). -/
def execWindowEnd (s : State) : Host.Outcome State Fault Refusal :=
  match s.grade.windowDue with
  | none => .next s
  | some t =>
    let s1 := (s.advanceTo t).setGrade (s.grade.endWindow t)
    if s1.grade.ceiling = s.grade.ceiling then .next s1
    else .next ((s1.notify .grade).trigger .ceiling)

/-- LIFETIME EXPIRY of the entry of a ticket (R132, R133). -/
def execLifetimeExpiry (ticket : Nat) (s : State) : Host.Outcome State Fault Refusal :=
  match s.entryOf ticket with
  | none => .next s
  | some x =>
    match x.expiry with
    | none => .next s
    | some t =>
      if x.inFlight then
        .next ((s.advanceTo t).mapEntry ticket fun y => { y with lapsed := true })
      else .next ((s.advanceTo t).removeEntry ticket .expired none)

end Sys2Proof.Machine
end

