-- ==== Sys2Proof/Machine/PortOps.lean ====
section
/-! DEFINITION. The local port: transactions, the status byte, the taking of a command, and the data of
the answers (chapter 8, section 10.3). -/

namespace Sys2Proof.Machine

/-! ## Transactions (R149 to R153) -/

/-- The port status byte (R150, section 10.3.1). -/
def State.statusByte (s : State) : Byte :=
  bitAt s.port.answerReady 7 ||| bitAt s.intn 6 ||| byteOf (16 * s.port.part.code) |||
    bitAt s.port.overrun 3

/-- CSN falls: a transaction begins, and the status byte is captured (R149, R150); nothing has been clocked out
yet. One that was in progress has ended before (log 19). While RESETN is held low no transaction begins (R165). -/
def State.csnFalls (s : State) : State :=
  if s.port.inReset then s else s.setPort { s.port with csn := some s.statusByte, miso := [] }

/-- The part drives MISO only while CSN is low in a transaction (R149, R165). -/
def State.drivesMiso (s : State) : Bool := s.port.csn.isSome

/-- The first `n` bits of some data with zeros behind them (R149, R153). -/
def padTo (n : Nat) (data : List Bool) : List Bool :=
  data.take n ++ List.replicate (n - data.length) false

/-- CSN rises after some SCK cycles: each has clocked out one bit, the captured status byte first, then some
bytes and then zeros, every byte most significant bit first (R149). -/
def State.clockOut (cycles : Nat) (data : List Byte) (s : State) : State :=
  s.setPort { s.port with
    csn := none, miso := padTo cycles (bitsOfBytes (s.port.csn.getD 0 :: data)) }

/-- The fall or the rise of CSN in a transaction of some row. A rise without a transaction in progress does
nothing: RESETN has ended the transaction (R165). A status read clocks out zeros and has no other effect
(R149). -/
def State.transfer (x : Transfer) (run : List Bool → State → State) (s : State) : State :=
  match x with
  | .csnFalls => s.csnFalls
  | .csnRises bits => if s.port.csn.isSome then run bits s else s
  | .statusRead cycles => if s.port.csn.isSome then s.clockOut cycles [] else s

/-- The bytes READ ANSWER clocks out after the status byte: the answer and then zeros, or the code NONE
where the buffer holds no answer or a command is executing (R153). -/
def State.answerBytes (s : State) : List Byte :=
  if s.port.busy then [Answer.noAnswer.byte]
  else
    match s.port.answer with
    | some a => a
    | none => [Answer.noAnswer.byte]

/-- A command is discarded as an overrun (R152). -/
def State.overrun (s : State) : State := s.setPort { s.port with overrun := true }

/-- The marks at the taking of a command and the answer it fixes (R151). -/
def State.leaveAnswer (answer : List Byte) (s : State) : State :=
  s.setPort { s.port with answer := some answer, answerReady := false, overrun := false, busy := true }

/-- A transaction that carries a command ends, its code followed by some bits on MOSI: zeros have been clocked
out behind the status byte, and the command is discarded as an overrun while the port is busy, else taken with
the whole bytes of those bits, at most 160 of them (R149, R151, R152; log 20). -/
def State.endCommand (run : List Byte → State → State × List Byte) (bits : List Bool) (s : State) : State :=
  let s1 := s.clockOut (8 + bits.length) []
  if s1.port.busy then s1.overrun
  else
    let r := run ((wholeBytes bits).take 160) s1
    r.1.leaveAnswer r.2

/-- A row of the local port that carries a command (R149, R151, R152). -/
def State.takeCommand (x : Transfer) (run : List Byte → State → State × List Byte) (s : State) : State :=
  s.transfer x (State.endCommand run)

/-- The carriage controller runs a whole transaction of some MOSI bits after the events that wait. -/
def State.sendTransaction (mosi : List Bool) (s : State) : State :=
  { s with pending := s.pending ++ transactionEvents mosi }

/-- A refusal: the answer code alone, and no change of state (R154, R176). -/
def State.refuse (a : Answer) (s : State) : State × List Byte := (s, [a.byte])

/-- DONE with its data. -/
def State.done (data : List Byte) (s : State) : State × List Byte := (s, Answer.done.byte :: data)

/-- The availability of a command in RUNNING alone (section 8.2). -/
def State.running (s : State) : Bool := s.port.part = .running

/-! ## READ ROSTER (section 10.3.3) -/

/-- An entry of a roster answer. -/
def RosterEntry.bytes : RosterEntry → List Byte
  | .silent => [0]
  | .heard id o cab c m =>
    (bitAt true 7 ||| bitAt o.bit 6 ||| byteOf (16 * c.code + 4 * m.code + cab.code)) :: bytes32 id

/-- The 12-byte header of a roster answer. The bits of bytes 10 and 11 that the layout does not name are sent
as 0 (log 21). -/
def Roster.header (r : Roster) : List Byte :=
  bytes16 r.epoch ++ bytes16 r.tag ++ bytes32 r.digest ++
    [byteOf r.n, byteOf r.ownPos,
     byteOf r.status.code ||| bitAt r.cabConflict 4 ||| bitAt r.noCab 5 ||| bitAt r.split 6,
     byteOf (16 * r.jointGrade.code + r.jointPayload.code)]

/-- The data of a roster answer. -/
def Roster.bytes (r : Roster) : List Byte := r.header ++ r.entries.flatMap RosterEntry.bytes

/-! ## TAKE and READ OUTCOMES (section 10.3.3) -/

/-- The data of a TAKE answer. The bits of byte 6 that the layout does not name are sent as 0 (log 21). -/
def RxEntry.bytes (x : RxEntry) : List Byte :=
  bytes32 x.source ++
    [byteOf x.sourcePos, byteOf x.mode.code, bitAt x.renamed 7 ||| byteOf x.grade.code,
     byteOf x.payload.length] ++ x.payload

/-- The three bytes of an outcome record. -/
def OutcomeRecord.bytes (o : OutcomeRecord) : List Byte :=
  [byteOf o.ticket, byteOf o.kind.code, byteOf (o.finalPos.getD 0)]

/-! ## READ STATE (section 10.3.3) -/

/-- A notice mask as its two bytes. Bit 15 is 0 in the answer of READ EVENTS (section 10.3.1); in the routing
mask, where it is disregarded, it is sent as 0 too (log 21). -/
def maskBytes (m : BitVec 15) : List Byte := bytes16 (m.setWidth 16)

/-- Bytes 3 to 10 of READ STATE: the configuration image; all 0 when it is absent. The upper four bits of the
permitted set, disregarded in CONFIGURE, are sent as 0 (log 21). -/
def imageBytes : Option Image → List Byte
  | none => List.replicate 8 0#8
  | some i =>
    bytes32 i.identity ++
      [i.permitted.setWidth 8, byteOf i.payloadMax.code, byteOf i.k, byteOf i.cabEnds.code]

/-- The seven bytes of an end of READ STATE. The bits of the seventh that the layout does not name are sent
as 0 (log 21). -/
def State.endBytes (s : State) (e : End) : List Byte :=
  let u := s.chain e
  [byteOf u.dec.state.code, byteOf (faultCode u.dec.fault)] ++ (s.endPair e).bytes ++
    [byteOf u.drv.loaded, byteOf u.drv.pending,
     bitAt (u.dec.state = .isolated) 0 ||| bitAt u.release 1]

/-- The nine bus counters, in the order of the table of R43. -/
def Counters.bytes (c : Counters) : List Byte :=
  bytes16 c.format ++ bytes16 c.crc ++ bytes16 c.stuff ++ bytes16 c.truncation ++
    bytes16 c.gradeSkip ++ bytes16 c.stranger ++ bytes16 c.stale ++ bytes16 c.foreign ++
    bytes16 c.overrun

/-- The 63-byte record of READ STATE (R163). -/
def State.record (s : State) : List Byte :=
  [byteOf s.port.part.code, byteOf s.port.cab.code, bitAt s.port.image.isSome 0] ++
    imageBytes s.port.image ++ [0] ++ maskBytes s.port.mask ++
    [byteOf s.comp.state.code, byteOf s.roundKind.code] ++ bytes16 s.comp.epoch ++
    [byteOf s.comp.reason.code, byteOf s.comp.failed] ++ s.endBytes .a ++ s.endBytes .b ++
    [byteOf s.bus.ctrl.code, byteOf s.bus.strikes, byteOf s.bus.cargoGrade.code,
     byteOf s.grade.ceiling.code, byteOf s.grade.limit.code, byteOf s.cargo.queue.length,
     byteOf s.cargo.received.length, byteOf s.cargo.outcomes.length, byteOf s.cargo.lastTicket] ++
    s.bus.counters.bytes ++ bytes16 s.cargo.outcomeLoss

/-! ## Submission (R126, R127) -/

/-- The first ticket after the last one issued, counting 1..255 in a ring, that no entry of the queue holds
(R127). With at most 24 entries one of 25 steps finds it. -/
def nextTicket (last : Nat) (held : List Nat) : Nat :=
  (((List.range 255).map fun i => (last + i) % 255 + 1).find? fun t => !held.contains t).getD 1

/-- The destination of a SUBMIT by its mode byte and value, or `none` where check 2 of R126 refuses it. -/
def State.submitDest (s : State) (mode : Byte) (value : BitVec 32) : Option Dest :=
  match mode.toNat with
  | 0 =>
    if 1 ≤ value.toNat ∧ value.toNat ≤ 16 ∧
        s.comp.current.map Roster.ownPos ≠ some value.toNat then
      some (.position value.toNat s.comp.current.isSome)
    else none
  | 1 => if value ≠ 0 ∧ value ≠ s.identity then some (.identity value) else none
  | 2 => some .leading
  | 3 => some .trailing
  | 4 => some .all
  | _ => none

/-- The greatest payload length check 3 of R126 allows. -/
def State.submitMax (s : State) : Nat :=
  match s.comp.current with
  | some r => Nat.min s.payloadMax.bytes r.jointPayload.bytes
  | none => s.payloadMax.bytes

/-- The payload bytes the layout of SUBMIT requires by its length field (R154, R176). -/
def submitNeeds (len : Nat) : Nat := if 1 ≤ len ∧ len ≤ 128 then len else 0

/-- An accepted message joins the queue with its ticket (R126, R127, R132). -/
def State.enqueue (d : Dest) (urgent : Bool) (lifetime : Nat) (payload : List Byte) (s : State) :
    State × List Byte :=
  let ticket := nextTicket s.cargo.lastTicket (s.cargo.queue.map TxEntry.ticket)
  (s.setCargo { s.cargo with
    lastTicket := ticket
    queue := s.cargo.queue ++
      [{ ticket := ticket, dest := d, urgent := urgent
         expiry := if lifetime = 0 then none else some (s.now + Config.lifetimeUnit * lifetime)
         payload := payload, attempts := 0, inFlight := false, lapsed := false
         renameOwed := false }] }).done [byteOf ticket]

end Sys2Proof.Machine
end

