-- ==== Sys2Proof/Machine/PortCommands.lean ====
section
/-! DEFINITION. The commands of the local port and its transactions (chapter 8): for each command what it
does once it is taken, and its meaning, which takes it. -/

namespace Sys2Proof.Machine

/-! ## CONFIGURE (R156) -/

/-- A CONFIGURE that passes: image, mask, ceiling limit and ceiling (R156, R122, R168). -/
def State.setImage (i : Image) (mask : BitVec 15) (s : State) : State :=
  (s.setPort { s.port with image := some i, mask := mask }).setGrade
    { s.grade with limit := ceilingLimit i.permitted, ceiling := ceilingLimit i.permitted }

/-- CONFIGURE, taken. -/
def State.configure (p : List Byte) (s : State) : State × List Byte :=
  if s.started then s.refuse .notNow
  else
    match p with
    | i0 :: i1 :: i2 :: i3 :: grades :: pay :: kf :: cab :: m0 :: m1 :: _ =>
      if word32 i0 i1 i2 i3 = 0 then s.refuse .badParameter
      else if grades.getLsbD 0 = false then s.refuse .badParameter
      else
        match PayloadMax.ofCode? pay.toNat, CabEnds.ofCode? cab.toNat with
        | some pm, some ce =>
          (s.setImage
            { identity := word32 i0 i1 i2 i3, permitted := grades.setWidth 4, payloadMax := pm
              k := kOfField kf.toNat, cabEnds := ce } ((word16 m0 m1).setWidth 15)).done []
        | _, _ => s.refuse .badParameter
    | _ => s.refuse .badParameter

/-- CONFIGURE. -/
def execConfigure (x : Transfer) (s : State) : Host.Outcome State Fault Refusal :=
  .next (s.takeCommand x State.configure)

/-! ## START (R157) -/

/-- A chain unit at START, but for its first period (R7, R24). -/
def ChainUnit.begin (t : Ticks) (u : ChainUnit) : ChainUnit :=
  { u with dec := .fresh t, drv := .fresh }

/-- The bus controller at START and at RESTART begins LISTENING with its idle count at 0 (R45). -/
def Bus.listen (t : Ticks) (b : Bus) : Bus :=
  { b with ctrl := .listening, idle := false, idleDue := some (t + Config.idleTime) }

/-- The grade monitor at START and RESTART (R122, R123). -/
def GradeMonitor.begin (t : Ticks) (g : GradeMonitor) : GradeMonitor :=
  { g with ceiling := g.limit, errors := 0, upRun := 0, windowDue := some (t + Config.window) }

/-- The chain change of an end whose release input is asserted at START (R24). -/
def State.releasedAtStart (e : End) (s : State) : State :=
  if (s.chain e).release then s.chainChanged e ⟨.openEnd, 0, none⟩ else s

/-- What an accepted START does (R157). -/
def State.begin (s : State) : State :=
  let s1 := s.setPort { s.port with part := .running, cab := .inactive }
  let s2 := (s1.setChain .a (s1.chainA.begin s1.now)).setChain .b (s1.chainB.begin s1.now)
  let s3 := (s2.syncDrive .a).syncDrive .b
  let s4 := s3.setBus (s3.bus.listen s3.now)
  let s5 := s4.setGrade (s4.grade.begin s4.now)
  let s6 := s5.trigger .start
  (s6.releasedAtStart .a).releasedAtStart .b

/-- START, taken: NOT NOW without a configuration (R157). -/
def State.startCommand (_p : List Byte) (s : State) : State × List Byte :=
  if s.started then s.refuse .notNow
  else if s.port.image.isNone then s.refuse .notNow
  else s.begin.done []

/-- START. -/
def execStart (s : State) (x : Transfer := .csnRises []) : Host.Outcome State Fault Refusal :=
  .next (s.takeCommand x State.startCommand)

/-! ## RESTART (R158) -/

/-- The bus controller's RESTART values (R45): the counters are kept. -/
def Bus.restart (t : Ticks) (b : Bus) : Bus := { Bus.reset with counters := b.counters }.listen t

/-- The composition engine's RESTART values, before the START trigger (R89). -/
def Comp.restart (c : Comp) : Comp := { Comp.reset with epoch := c.epoch }

/-- The cargo router's RESTART values (R148). -/
def Cargo.restart (c : Cargo) : Cargo := { c with queue := [], received := [], outcomes := [] }

/-- What an accepted RESTART does (R158). -/
def State.restart (s : State) : State :=
  let s1 := s.setBus (s.bus.restart s.now)
  let s2 := s1.setGrade (s1.grade.begin s1.now)
  let s3 := s2.setCargo s2.cargo.restart
  let s4 := ((s3.setComp s3.comp.restart).recordReason .start).raiseEpoch
  s4.setPort { s4.port with part := .running, flags := Notice.restarted.flag }

/-- RESTART, taken. -/
def State.restartCommand (_p : List Byte) (s : State) : State × List Byte :=
  if s.started then s.restart.done [] else s.refuse .notNow

/-- RESTART. -/
def execRestart (s : State) (x : Transfer := .csnRises []) : Host.Outcome State Fault Refusal :=
  .next (s.takeCommand x State.restartCommand)

/-! ## SET CAB, ISOLATE, RECOMPOSE (R159 to R161) -/

/-- A cab setting is one the fitted cab ends allow (R159). -/
def CabEnds.allows (c : CabEnds) (x : CabSetting) : Bool :=
  match x.activeEnd with
  | none => true
  | some e => c.fits e

/-- A cab setting accepted: a different one replaces the present one and makes a CAB trigger (R159). -/
def State.setCab (x : CabSetting) (s : State) : State :=
  if x = s.port.cab then s else (s.setPort { s.port with cab := x }).trigger .cab

/-- SET CAB, taken. -/
def State.setCabCommand (p : List Byte) (s : State) : State × List Byte :=
  if s.running then
    match p with
    | b :: _ =>
      match CabSetting.ofCode? b.toNat with
      | some x => if s.cabEnds.allows x then (s.setCab x).done [] else s.refuse .badParameter
      | none => s.refuse .badParameter
    | [] => s.refuse .badParameter
  else s.refuse .notNow

/-- SET CAB. -/
def execSetCab (x : Transfer) (s : State) : Host.Outcome State Fault Refusal :=
  .next (s.takeCommand x State.setCabCommand)

/-- The end of a parameter byte (section 10.3.2). -/
def endOfCode? (n : Nat) : Option End :=
  match n with
  | 0 => some .a
  | 1 => some .b
  | _ => none

/-- Isolation set or lifted at an end (R20, R160). -/
def State.isolate (e : End) (on : Bool) (s : State) : State :=
  s.changeUnit e fun u =>
    { u with dec := if on then u.dec.isolate s.now else u.dec.unisolate s.now }

/-- ISOLATE, taken. -/
def State.isolateCommand (p : List Byte) (s : State) : State × List Byte :=
  if s.started then
    match p with
    | b :: c :: _ =>
      match endOfCode? b.toNat with
      | none => s.refuse .badParameter
      | some e =>
        if c.toNat = 0 then (s.isolate e false).done []
        else if c.toNat = 1 then (s.isolate e true).done []
        else s.refuse .badParameter
    | _ => s.refuse .badParameter
  else s.refuse .notNow

/-- ISOLATE. -/
def execIsolate (x : Transfer) (s : State) : Host.Outcome State Fault Refusal :=
  .next (s.takeCommand x State.isolateCommand)

/-- RECOMPOSE, taken. -/
def State.recomposeCommand (_p : List Byte) (s : State) : State × List Byte :=
  if s.running then (s.trigger .command).done [] else s.refuse .notNow

/-- RECOMPOSE. -/
def execRecompose (s : State) (x : Transfer := .csnRises []) : Host.Outcome State Fault Refusal :=
  .next (s.takeCommand x State.recomposeCommand)

/-! ## The cargo commands (R126, R134, R144, R146) -/

/-- Checks 2 to 4 of R126 and the acceptance, once the length stage has passed. -/
def State.submitChecks (mode : Byte) (value : BitVec 32) (urgency lifetime len : Byte)
    (rest : List Byte) (s : State) : State × List Byte :=
  match s.submitDest mode value with
  | none => s.refuse .badParameter
  | some d =>
    if 1 < urgency.toNat then s.refuse .badParameter
    else if len.toNat = 0 ∨ s.submitMax < len.toNat then s.refuse .tooLong
    else if 24 ≤ s.cargo.queue.length then s.refuse .queueFull
    else s.enqueue d (urgency.toNat = 1) lifetime.toNat (rest.take len.toNat)

/-- SUBMIT, taken. -/
def State.submitCommand (p : List Byte) (s : State) : State × List Byte :=
  if s.running then
    match p with
    | mode :: v0 :: v1 :: v2 :: v3 :: urgency :: lifetime :: len :: rest =>
      if rest.length < submitNeeds len.toNat then s.refuse .badParameter
      else s.submitChecks mode (word32 v0 v1 v2 v3) urgency lifetime len rest
    | _ => s.refuse .badParameter
  else s.refuse .notNow

/-- SUBMIT. -/
def execSubmit (x : Transfer) (s : State) : Host.Outcome State Fault Refusal :=
  .next (s.takeCommand x State.submitCommand)

/-- WITHDRAW of a ticket (R134). -/
def State.withdrawTicket (ticket : Nat) (s : State) : State × List Byte :=
  match s.entryOf ticket with
  | none => s.refuse .notFound
  | some x =>
    if x.inFlight then s.refuse .tooLate else (s.removeEntry ticket .withdrawn none).done []

/-- WITHDRAW, taken. -/
def State.withdrawCommand (p : List Byte) (s : State) : State × List Byte :=
  if s.started then
    match p with
    | b :: _ => s.withdrawTicket b.toNat
    | [] => s.refuse .badParameter
  else s.refuse .notNow

/-- WITHDRAW. -/
def execWithdraw (x : Transfer) (s : State) : Host.Outcome State Fault Refusal :=
  .next (s.takeCommand x State.withdrawCommand)

/-- TAKE, taken (R144). -/
def State.takeArrival (_p : List Byte) (s : State) : State × List Byte :=
  if s.started then
    match s.cargo.received with
    | [] => s.refuse .empty
    | x :: xs => (s.setCargo { s.cargo with received := xs }).done x.bytes
  else s.refuse .notNow

/-- TAKE. -/
def execTake (s : State) (x : Transfer := .csnRises []) : Host.Outcome State Fault Refusal :=
  .next (s.takeCommand x State.takeArrival)

/-- READ OUTCOMES, taken (R146). -/
def State.readOutcomesCommand (_p : List Byte) (s : State) : State × List Byte :=
  if s.started then
    match s.cargo.outcomes.take 8 with
    | [] => s.refuse .empty
    | o :: os =>
      (s.setCargo { s.cargo with outcomes := s.cargo.outcomes.drop 8 }).done
        (byteOf (o :: os).length :: (o :: os).flatMap OutcomeRecord.bytes)
  else s.refuse .notNow

/-- READ OUTCOMES. -/
def execReadOutcomes (s : State) (x : Transfer := .csnRises []) : Host.Outcome State Fault Refusal :=
  .next (s.takeCommand x State.readOutcomesCommand)

/-! ## Reading the part (R113, R163, R164) -/

/-- The answer that returns a roster slot (R113). -/
def State.answerRoster (r : Option Roster) (s : State) : State × List Byte :=
  match r with
  | some x => s.done x.bytes
  | none => s.refuse .empty

/-- READ ROSTER, taken. -/
def State.readRosterCommand (p : List Byte) (s : State) : State × List Byte :=
  if s.started then
    match p with
    | b :: _ =>
      if b.toNat = 0 then s.answerRoster s.comp.current
      else if b.toNat = 1 then s.answerRoster s.comp.previous
      else s.refuse .badParameter
    | [] => s.refuse .badParameter
  else s.refuse .notNow

/-- READ ROSTER. -/
def execReadRoster (x : Transfer) (s : State) : Host.Outcome State Fault Refusal :=
  .next (s.takeCommand x State.readRosterCommand)

/-- READ STATE, taken, in every part state. -/
def State.readStateCommand (_p : List Byte) (s : State) : State × List Byte := s.done s.record

/-- READ STATE. -/
def execReadState (s : State) (x : Transfer := .csnRises []) : Host.Outcome State Fault Refusal :=
  .next (s.takeCommand x State.readStateCommand)

/-- READ EVENTS, taken, in every part state: the flags returned are cleared (R164). -/
def State.readEventsCommand (_p : List Byte) (s : State) : State × List Byte :=
  (s.setPort { s.port with flags := 0 }).done (maskBytes s.port.flags)

/-- READ EVENTS. -/
def execReadEvents (s : State) (x : Transfer := .csnRises []) : Host.Outcome State Fault Refusal :=
  .next (s.takeCommand x State.readEventsCommand)

/-! ## Transactions and port events (R151 to R153, R165) -/

/-- READ ANSWER: the answer and zeros for every SCK cycle behind the status byte, in every part state (R153). The answer is the one that stands when CSN rises (log 19). -/
def execReadAnswer (x : Transfer) (s : State) : Host.Outcome State Fault Refusal :=
  .next (s.transfer x fun bits t => t.clockOut (8 + bits.length) t.answerBytes)

/-- COMMAND OVERRUN: a transaction that carries a command, whichever it is, ends while the port is busy
(R152). It arises only then (log 3). -/
def execCommandOverrun (s : State) (x : Transfer := .csnRises []) : Host.Outcome State Fault Refusal :=
  .next (s.transfer x fun bits t =>
    if t.port.busy then (t.clockOut (8 + bits.length) []).overrun else t)

/-- ANSWER READY: the executing command's answer is complete (R151; log 20). -/
def execAnswerReady (s : State) : Host.Outcome State Fault Refusal :=
  .next (if s.port.busy then s.setPort { s.port with answerReady := true, busy := false } else s)

/-- Every block takes its hardware-reset values; the release inputs are pins (log 5), and the waiting commands
are not the part's (log 30). A transaction in progress is abandoned (R165). -/
def State.hardwareReset (s : State) : State :=
  { State.reset with
    chainA := .fresh s.chainA.release
    chainB := .fresh s.chainB.release
    pending := s.pending }

/-- HARDWARE RESET by power-on or by RESETN, which holds the part in reset until it rises (R165). -/
def execHardwareReset (s : State) (edge : ResetEdge := .powerOn) : Host.Outcome State Fault Refusal :=
  match edge with
  | .powerOn => .next s.hardwareReset
  | .resetnFalls => .next (s.hardwareReset.setPort { Port.reset with inReset := true })
  | .resetnRises => .next (s.setPort { s.port with inReset := false })

end Sys2Proof.Machine
end

