-- ==== Sys2Proof/Machine/Dispatch.lean ====
section
/-! DEFINITION. The meaning of each command and event of the opcode table, one arm each. -/

namespace Sys2Proof.Machine

/-- What a command or event does to everything but the queue. -/
def exec (i : Instr) (s : State) : Host.Outcome State Fault Refusal :=
  match i with
  | .configure x => Sys2Proof.Machine.execConfigure x s
  | .start x => Sys2Proof.Machine.execStart s x
  | .restart x => Sys2Proof.Machine.execRestart s x
  | .setCab x => Sys2Proof.Machine.execSetCab x s
  | .isolate x => Sys2Proof.Machine.execIsolate x s
  | .recompose x => Sys2Proof.Machine.execRecompose s x
  | .submit x => Sys2Proof.Machine.execSubmit x s
  | .withdraw x => Sys2Proof.Machine.execWithdraw x s
  | .take x => Sys2Proof.Machine.execTake s x
  | .readOutcomes x => Sys2Proof.Machine.execReadOutcomes s x
  | .readRoster x => Sys2Proof.Machine.execReadRoster x s
  | .readState x => Sys2Proof.Machine.execReadState s x
  | .readEvents x => Sys2Proof.Machine.execReadEvents s x
  | .readAnswer x => Sys2Proof.Machine.execReadAnswer x s
  | .commandOverrun x => Sys2Proof.Machine.execCommandOverrun s x
  | .answerReady => Sys2Proof.Machine.execAnswerReady s
  | .hardwareReset edge => Sys2Proof.Machine.execHardwareReset s edge
  | .periodBoundary e => Sys2Proof.Machine.execPeriodBoundary e s
  | .completedPeriod e p h => Sys2Proof.Machine.execCompletedPeriod e p h s
  | .loss e => Sys2Proof.Machine.execLoss e s
  | .partingSensed e => Sys2Proof.Machine.execPartingSensed e s
  | .stuckHigh e => Sys2Proof.Machine.execStuckHigh e s
  | .releaseAsserted e => Sys2Proof.Machine.execReleaseAsserted e s
  | .releaseDeasserted e => Sys2Proof.Machine.execReleaseDeasserted e s
  | .busIdle => Sys2Proof.Machine.execBusIdle s
  | .frameReceived bits => Sys2Proof.Machine.execFrameReceived bits s
  | .lostArbitration bit => Sys2Proof.Machine.execLostArbitration bit s
  | .dominantReadRecessive bit => Sys2Proof.Machine.execDominantReadRecessive s bit
  | .strike bit => Sys2Proof.Machine.execStrike bit s
  | .cleanCompletion => Sys2Proof.Machine.execCleanCompletion s
  | .restTimerExpiry => Sys2Proof.Machine.execRestTimerExpiry s
  | .quietHoldEnd => Sys2Proof.Machine.execQuietHoldEnd s
  | .cadenceTimer => Sys2Proof.Machine.execCadenceTimer s
  | .lastEntryTimeout => Sys2Proof.Machine.execLastEntryTimeout s
  | .roundDeadline => Sys2Proof.Machine.execRoundDeadline s
  | .limpRetry => Sys2Proof.Machine.execLimpRetry s
  | .presenceSchedulePoint => Sys2Proof.Machine.execPresenceSchedulePoint s
  | .memberLost id => Sys2Proof.Machine.execMemberLost id s
  | .windowEnd => Sys2Proof.Machine.execWindowEnd s
  | .lifetimeExpiry ticket => Sys2Proof.Machine.execLifetimeExpiry ticket s
  | .startBitSeen => Sys2Proof.Machine.execStartBitSeen s
  | .intermissionPassed => Sys2Proof.Machine.execIntermissionPassed s

end Sys2Proof.Machine
end

