-- ==== Sys2Proof/Machine/Step.lean ====
section
/-! DEFINITION. One step of the part: the front command of the queue, or a tick of the timebase when none
waits. -/

namespace Sys2Proof.Machine

/-- The state with another queue of waiting commands. -/
def State.setPending (s : State) (q : List Instr) : State := { s with pending := q }

/-- Nothing waits: the timebase counts one chain tick (R1; log 1). It runs from the end of a hardware reset, so
not while RESETN is held low. -/
def State.tick (s : State) : State := if s.port.inReset then s else s.setNow (s.now + 1)

/-- One step: the command at the front of the queue is taken with the queue's rest; an empty queue lets the
timebase count on. -/
def step (s : State) : Host.Outcome State Fault Refusal :=
  match s.pending with
  | [] => .next s.tick
  | c :: rest => exec c (s.setPending rest)

/-- The command that a numbered word spells put at the front of the queue. The opcode table gives no row any
bits, so no word spells one and the state stays as it is (log 29). -/
def State.withFetchWord (s : State) (nbits w : Nat) : State :=
  match decodeTableWord nbits w with
  | some c => s.setPending (c :: s.pending)
  | none => s

end Sys2Proof.Machine
end

