-- ==== Sys2Proof/Safety.lean ====
section
/-! DEFINITION. What a safe state of the part is: the rules of the spec that hold of every state the part can
be in, block by block, as predicates that every step keeps. -/

namespace Sys2Proof.Machine

/-! ## The words in which statements speak -/

/-- What a local-port command's row says of its transaction; `none` for READ ANSWER, which is no command
(R153), for COMMAND OVERRUN and for events. -/
def commandTransfer : Instr → Option Transfer
  | .configure x | .start x | .restart x | .setCab x | .isolate x | .recompose x | .submit x
  | .withdraw x | .take x | .readOutcomes x | .readRoster x | .readState x | .readEvents x => some x
  | .readAnswer _ | .commandOverrun _ | .answerReady | .hardwareReset _ | .periodBoundary _
  | .completedPeriod _ _ _ | .loss _ | .partingSensed _ | .stuckHigh _ | .releaseAsserted _
  | .releaseDeasserted _ | .busIdle | .frameReceived _ | .lostArbitration _
  | .dominantReadRecessive _ | .strike _ | .cleanCompletion | .restTimerExpiry | .quietHoldEnd
  | .cadenceTimer | .lastEntryTimeout | .roundDeadline | .limpRetry | .presenceSchedulePoint
  | .memberLost _ | .windowEnd | .lifetimeExpiry _ | .startBitSeen | .intermissionPassed => none

/-- The MOSI bits behind the code of a command whose transaction ends; `none` for everything else. -/
def commandBits (c : Instr) : Option (List Bool) := (commandTransfer c).bind Transfer.carried

/-- What any row of the local port says of its transaction. -/
def portTransfer (c : Instr) : Option Transfer :=
  match c with
  | .readAnswer x | .commandOverrun x => some x
  | c => commandTransfer c

/-- The part states in which a command is taken (section 8.2). -/
def availableIn : Instr → PartState → Bool
  | .configure _, p | .start _, p => p = .unconfigured
  | .setCab _, p | .recompose _, p | .submit _, p => p = .running
  | .restart _, p | .isolate _, p | .withdraw _, p | .take _, p | .readOutcomes _, p
  | .readRoster _, p => p ≠ .unconfigured
  | .readState _, _ | .readEvents _, _ | .readAnswer _, _ => true
  | .commandOverrun _, _ | .answerReady, _ | .hardwareReset _, _ | .periodBoundary _, _
  | .completedPeriod _ _ _, _ | .loss _, _ | .partingSensed _, _ | .stuckHigh _, _
  | .releaseAsserted _, _ | .releaseDeasserted _, _ | .busIdle, _ | .frameReceived _, _
  | .lostArbitration _, _ | .dominantReadRecessive _, _ | .strike _, _ | .cleanCompletion, _
  | .restTimerExpiry, _ | .quietHoldEnd, _ | .cadenceTimer, _ | .lastEntryTimeout, _
  | .roundDeadline, _ | .limpRetry, _ | .presenceSchedulePoint, _ | .memberLost _, _
  | .windowEnd, _ | .lifetimeExpiry _, _ | .startBitSeen, _ | .intermissionPassed, _ => true

/-- A transaction is in progress and no command is executing: a command it carries is taken at its end (R149,
R151, R152). -/
def State.ready (s : State) : Prop := s.port.csn.isSome = true ∧ s.port.busy = false

/-- The bits a transaction clocks out in all: the status byte captured when CSN fell, most significant bit first,
then `n` zeros (R149, R150). -/
def State.zerosOut (s : State) (n : Nat) : List Bool :=
  bitsOf 8 (s.port.csn.getD 0).toNat ++ List.replicate n false

/-- The port after a command with some MOSI bits behind its code has been taken in state `s` and has left an
answer (R149 to R151). -/
def Port.answering (s : State) (mosi : List Bool) (answer : List Byte) (p : Port) : Port :=
  { p with
    answer := some answer, answerReady := false, overrun := false, busy := true, csn := none
    miso := s.zerosOut mosi.length }

/-- The state after a command that leaves an answer and changes nothing else (R151, R154). -/
def State.answered (mosi : List Bool) (answer : List Byte) (s : State) : State :=
  { s with port := s.port.answering s mosi answer }

/-- A composition state in which a local trigger that is no chain change raises the epoch (R64 to R67). -/
def CompState.takesTriggers (c : CompState) : Prop :=
  c = .settled ∨ c = .limp ∨ c = .quiet ∨ c = .offer ∨ c = .confirm

/-- The bus after a whole frame of another station has been heard from its start bit to the last bit of its end
field: the reception ends, and idle falls eleven recessive G1 bit times after the frame's last dominant level
(R26, R36, R42). -/
def Bus.afterFrame (now : Ticks) (f : Frame) (b : Bus) : Bus :=
  { b with
    ctrl := if b.ctrl = .receiving then .listening else b.ctrl, rx := none
    idleDue := some (now + f.idleAfter (f.wireBits.length - 1)) }

/-- The slot after a composition frame is handed back: the frame unless a newer one is there (R32, R34). -/
def Bus.slotWith (f : CompFrame) (b : Bus) : Option CompFrame :=
  match b.slot with
  | some g => some g
  | none => some f

/-- A frame a station can send and a station of a permitted set follows to its end (R27, R30, R37). -/
structure Frame.Readable (permitted : BitVec 4) (f : Frame) : Prop where
  cls    : f.cls = 1 ∨ f.cls = 2 ∨ f.cls = 3 ∨ f.cls = 4 ∨ f.cls = 6
  grade  : f.cls ≤ 3 → f.grade = .g1
  body   : f.body.length ≤ 140
  permit : permits permitted f.grade = true

/-- What the composition engine alone cannot touch: the clock, the chain units, the grade monitor, the
waiting commands, the port but for its flags, and the bus controller but for slot, cargo grade and
counters. -/
structure OutsideEngine (s t : State) : Prop where
  now     : t.now = s.now
  chainA  : t.chainA = s.chainA
  chainB  : t.chainB = s.chainB
  grade   : t.grade = s.grade
  pending : t.pending = s.pending
  bus     : t.bus = { s.bus with
              slot := t.bus.slot, cargoGrade := t.bus.cargoGrade, counters := t.bus.counters }
  port    : t.port = { s.port with flags := t.port.flags }

/-- A new round has begun, at an epoch and for a reason, and nothing but the composition engine and its slot
has changed since `s` (R61, R65 to R69). The slot is empty, also of an offer that R119 lets go out (log 37). -/
structure NewRound (s t : State) (e : Epoch) (r : Reason) : Prop where
  comp     : t.comp = { s.comp with
               state := .quiet, epoch := e, reason := r, pendingRoster := none, disagreements := 0
               ownSent := 0, offerDone := false, overflow := false, lastEntry := some s.now
               holdDue := some (s.now + 320000), cadenceDue := none, retryDue := none
               retryFell := match s.comp.retryDue with
                 | some d => if d ≤ s.now then some s.now else none
                 | none => s.comp.retryFell
               deadlineDue := some (s.now + 8000000), table := t.comp.table
               presenceDue := if s.currentIsLimp then s.comp.presenceDue else none
               watch := if s.currentIsLimp then s.comp.watch else [] }
  table    : t.comp.table = [⟨s.identity, { s.ownOffer with epoch := e }, none⟩]
  rest     : t = { s with comp := t.comp, bus := { s.bus with slot := none } }

/-- An event of one end's decoder or release input has changed, of the other end, no more than its pending code and
saturated mark, which follow the count reported; and of the rest, no more than the clock, flags, and with a
changed report the composition engine and its slot (R4, R21, R23). -/
structure EndEvent (s t : State) (e : End) : Prop where
  other   : t.chain e.other = { s.chain e.other with drv := { (s.chain e.other).drv with
              pending := min 16 (1 + (t.report e).count)
              saturated := decide (16 < 1 + (t.report e).count) } }
  quietly : t.report e = s.report e → t.comp = s.comp ∧ t.bus = s.bus
  bus     : t.bus = { s.bus with slot := t.bus.slot }
  port    : t.port = { s.port with flags := t.port.flags }
  cargo   : t.cargo = s.cargo
  grade   : t.grade = s.grade
  pending : t.pending = s.pending

/-- What an end reports outside UNCONFIGURED, by the rows of R22: isolation first, then local release (R21), then
the decoder's state with its held value. -/
structure ReportRows (s : State) (e : End) : Prop where
  isolated  : (s.chain e).dec.state = .isolated → s.report e = ⟨.isolated, 0, none⟩
  released  : (s.chain e).dec.state ≠ .isolated → (s.chain e).release = true →
                s.report e = ⟨.parting, 0, none⟩
  openLine  : (s.chain e).dec.state = .openLine → (s.chain e).release = false →
                s.report e = ⟨.openEnd, 0, none⟩
  valued    : (s.chain e).dec.state = .acquiring ∨ (s.chain e).dec.state = .held →
                (s.chain e).release = false → ∀ c, (s.chain e).dec.held = some c →
                s.report e = ⟨.held, c.code, some c.cls⟩
  acquiring : (s.chain e).dec.state = .acquiring → (s.chain e).release = false →
                (s.chain e).dec.held = none → s.report e = ⟨.openEnd, 0, none⟩
  parting   : (s.chain e).dec.state = .parting → (s.chain e).release = false →
                s.report e = ⟨.parting, 0, none⟩
  fault     : (s.chain e).dec.state = .fault → (s.chain e).release = false →
                s.report e = ⟨.fault, 0, none⟩

/-- The reason of the trigger that a change of an end's report makes (R23, section 4.2). -/
def chainReason (before after : Triple) : Reason :=
  if after.state = .parting ∧ before.state ≠ .parting then .parting else .chain

/-- A chain change has given the composition engine its trigger: in QUIET the hold is restarted and the epoch kept,
in OFFER, CONFIRM, SETTLED and LIMP a new round begins, and in HALTED nothing happens (R23, R65 to R67, R88). -/
structure ChainTrigger (s t : State) (e : End) : Prop where
  quiet  : s.comp.state = .quiet → t.bus = s.bus ∧
             t.comp = { s.comp with
               reason := chainReason (s.report e) (t.report e), holdDue := some (t.now + 320000) }
  raised : s.comp.state = .offer ∨ s.comp.state = .confirm ∨ s.comp.state = .settled ∨
               s.comp.state = .limp →
             NewRound { t with comp := s.comp, bus := s.bus } t (s.comp.epoch + 1)
               (chainReason (s.report e) (t.report e))
  halted : s.comp.state = .halted → t.comp = s.comp ∧ t.bus = s.bus

/-- An event of the chain units, or the end of a transaction with ISOLATE, acts on an end (R12 to R21, R160). -/
def actsOnEnd (c : Instr) (e : End) : Prop :=
  (∃ p h, c = .completedPeriod e p h) ∨ c = .loss e ∨ c = .partingSensed e ∨ c = .stuckHigh e ∨
    c = .releaseAsserted e ∨ c = .releaseDeasserted e ∨
    ∃ mosi b rest, c = .isolate (.csnRises mosi) ∧ wholeBytes mosi = b :: rest ∧ b.toNat = (if e = .a then 0 else 1)

/-- The stop of the part (R41, R88, R140, R171), in a state the bus controller has come to: controller, part and engine
stop, and the transmit queue is flushed in its order, with its outcomes where there is room for them. -/
structure PartStops (s t : State) : Prop where
  bus      : t.bus = { s.bus with ctrl := .silenced, slot := none, restDue := none, selected := none }
  port     : t.port = { s.port with part := .silenced, flags := t.port.flags }
  silenced : t.flagSet .silenced = true
  comp     : t.comp = { s.comp with
               state := .halted, pendingRoster := none, holdDue := none, cadenceDue := none
               deadlineDue := none, retryDue := none, retryFell := none, presenceDue := none, watch := [] }
  queue    : t.cargo = { s.cargo with
               queue := [], outcomes := t.cargo.outcomes, outcomeLoss := t.cargo.outcomeLoss }
  flushed  : (s.cargo.queue.map TxEntry.ticket).Nodup →
               s.cargo.outcomes.length + s.cargo.queue.length ≤ 32 →
               t.cargo.outcomes = s.cargo.outcomes ++ s.cargo.queue.map (fun x => ⟨x.ticket, .flushed, none⟩) ∧
               t.cargo.outcomeLoss = s.cargo.outcomeLoss
  rest     : t = { s with bus := t.bus, port := t.port, comp := t.comp, cargo := t.cargo }

/-- A placement attempted in state `s` has taken the engine out of OFFER by its result (R71, R72, R74, R77, R79,
R80). -/
structure PlacementTaken (s t : State) (result : PlacementResult) : Prop where
  found    : ∀ r, result = .success r → t.comp.epoch = s.comp.epoch ∧
               if ∀ id ∈ r.heardIds, id ≠ s.identity →
                   ∃ x ∈ s.comp.table, x.id = id ∧ x.confirmed = some r.digest
               then t.comp.state = .settled ∧ t.comp.current = some r ∧ t.comp.pendingRoster = none
               else t.comp.state = .confirm ∧ t.comp.pendingRoster = some r ∧
                 (s.bus.idle = false →
                   t.bus.slot = some (.confirm s.comp.epoch r.digest r.ownPos))
  tooLong  : result = .tooLong →
               t.comp.state = .limp ∧ t.comp.failed = s.comp.failed ∧ t.comp.epoch = s.comp.epoch
  failed   : result = .conflict ∨ result = .unplaced ∨ result = .overflow →
               t.comp.failed = min 255 (s.comp.failed + 1) ∧ t.comp.reason = .roundFailed ∧
               (s.comp.failed < 2 → t.comp.state = .quiet ∧ t.comp.epoch = s.comp.epoch + 1) ∧
               (2 ≤ s.comp.failed → t.comp.state = .limp ∧ t.comp.epoch = s.comp.epoch)

/-- Entry into OFFER: any pending roster is given up, the offer built refreshes the own entry and takes the slot, and
the cadence timer runs; count of own offers, disagreements and epoch are kept (R57, R70, R75). -/
def State.enteringOffer (s : State) : State :=
  { s with
    comp := { s.comp with
      state := .offer, offerDone := false, pendingRoster := none, holdDue := none
      cadenceDue := some (s.now + 320000)
      table := s.comp.table.map fun x =>
        if x.id = s.identity then ⟨s.identity, s.ownOffer, none⟩ else x }
    bus := { s.bus with slot := some (.offer s.ownOffer) } }

/-- A triple that bounds a run (R92). -/
abbrev Triple.bounds (t : Triple) : Prop :=
  t = ⟨.openEnd, 0, none⟩ ∨ t = ⟨.isolated, 0, none⟩ ∨ t = ⟨.parting, 0, none⟩

/-- Stations that all stand A end first, each counting the carriages to the extremity beyond each of its ends and
facing its neighbours' ends, without a mark of saturation; what the outer ends of the row report is left to the
caller. -/
structure Aligned (row : List HeardEntry) (outerA outerB : Triple → Prop) : Prop where
  marks : ∀ x ∈ row, x.offer.endA.saturated = false ∧ x.offer.endB.saturated = false
  endsA : ∀ j x, row[j]? = some x →
            if j = 0 then outerA x.offer.endA.report else x.offer.endA.report = ⟨.held, j, some .b⟩
  endsB : ∀ j x, row[j]? = some x →
            if j + 1 = row.length then outerB x.offer.endB.report
            else x.offer.endB.report = ⟨.held, row.length - 1 - j, some .a⟩

/-- The slots of some stations, from the first on, with their A ends toward the reference end. -/
def forwardSlots (row : List HeardEntry) : List RunSlot := row.map fun x => some ⟨x, .a⟩

/-- The slots of some stations from the last back, with their B ends toward the reference end. -/
def backwardSlots (row : List HeardEntry) : List RunSlot := row.reverse.map fun x => some ⟨x, .b⟩

/-- The result of full placement as the engine attempts it (R91). -/
def State.placement (s : State) : PlacementResult :=
  place s.comp.table s.comp.overflow s.comp.current s.comp.epoch s.identity

/-- The state after an accepted cargo frame: stored with CARGO, or dropped with RX LOST and counted where the
receive queue holds 16 entries (R143). -/
def State.arrived (x : RxEntry) (s : State) : State :=
  if s.cargo.received.length < 16 then
    { s with
      cargo := { s.cargo with received := s.cargo.received ++ [x] }
      port := { s.port with flags := s.port.flags ||| 0x0020#15 } }
  else
    { s with
      bus := { s.bus with
        counters := { s.bus.counters with overrun := satInc s.bus.counters.overrun } }
      port := { s.port with flags := s.port.flags ||| 0x0800#15 } }

/-- What an adoption leaves of a transmit entry: one in flight owes its rename, and one in the queue is reviewed
(R136). -/
def renamed (previous : Option Roster) (current : Roster) (x : TxEntry) : Option TxEntry :=
  if x.inFlight then some { x with renameOwed := true }
  else
    match reviewEntry previous current x with
    | .ok y => some y
    | .error _ => none

/-- The outcome with which an adoption removes a transmit entry (R136). -/
def departed (previous : Option Roster) (current : Roster) (x : TxEntry) : Option OutcomeRecord :=
  if x.inFlight then none
  else
    match reviewEntry previous current x with
    | .ok _ => none
    | .error k => some ⟨x.ticket, k, none⟩

/-- What comes of a cargo entry that leaves flight and would return to the queue, between the entries before and
after it and with some attempt count (R131, R133, R136): it is back in its place, no longer in flight; one that owes
a rename is reviewed; one that has lapsed is gone with EXPIRED, and one that fails its review with the review's
outcome, where there is room for it. `answers u` says what an event then answers, `u` being the state it was taken in
with the transmit queue, the outcomes and the flags as the return leaves them. -/
structure EntryReturns (s : State) (before after : List TxEntry) (y : TxEntry) (attempts : Nat)
    (answers : State → Prop) : Prop where
  back     : y.lapsed = false → y.renameOwed = false →
               answers { s with cargo := { s.cargo with
                 queue := before ++ { y with attempts := attempts, inFlight := false } :: after } }
  renamed  : ∀ cur z, y.lapsed = false → y.renameOwed = true → s.comp.current = some cur →
               reviewEntry s.comp.previous cur { y with attempts := attempts, inFlight := false } = .ok z →
               answers { s with cargo := { s.cargo with queue := before ++ z :: after } }
  gone     : ∀ kind, s.cargo.outcomes.length < 32 →
               (y.lapsed = true ∧ kind = .expired) ∨
                 (y.lapsed = false ∧ y.renameOwed = true ∧ ∃ cur, s.comp.current = some cur ∧
                   reviewEntry s.comp.previous cur { y with attempts := attempts, inFlight := false } =
                     .error kind) →
               answers { s with
                 cargo := { s.cargo with
                   queue := before ++ after
                   outcomes := s.cargo.outcomes ++ [⟨y.ticket, kind, none⟩] }
                 port := { s.port with flags := s.port.flags ||| 0x0040#15 } }

/-- What the owner of an own frame that has struck makes of it (R34, R131, R133, R136): a composition frame is in the
slot unless a newer one is, and a cargo entry returns to the queue with its attempts raised, or leaves with BUS FAILURE
at the third, whatever its marks. `answers u` says what the event then answers, `u` being the state it was taken in as
the owner leaves it. -/
structure StruckFrameReturns (s : State) (o : Origin) (answers : State → Prop) : Prop where
  comp  : ∀ f, o = .comp f → answers { s with bus := { s.bus with slot := s.bus.slotWith f } }
  cargo : ∀ ticket p before after y, o = .cargo ticket p → s.cargo.queue = before ++ y :: after →
            (s.cargo.queue.map TxEntry.ticket).Nodup → y.ticket = ticket →
            (y.attempts < 2 → EntryReturns s before after y (y.attempts + 1) answers) ∧
            (y.attempts = 2 → s.cargo.outcomes.length < 32 → answers { s with
              cargo := { s.cargo with
                queue := before ++ after
                outcomes := s.cargo.outcomes ++ [⟨ticket, .busFailure, none⟩] }
              port := { s.port with flags := s.port.flags ||| 0x0040#15 } })

/-- The heard instant of a watched member moves with each well-formed composition frame from it (R54, R87). -/
def Comp.noted (src : Identity) (now : Ticks) (c : Comp) : Comp :=
  { c with watch := c.watch.map fun w => if w.id = src then { w with heard := now } else w }

/-! ## Part state, controller state and composition state go together -/

/-- The part state, the bus controller's state and the composition state agree (R42, R62, R88, R155, R171),
and what each of them says of transmission, reception, the idle count, rest, windows and RESETN holds. -/
structure Modes (s : State) : Prop where
  offIff        : s.bus.ctrl = .off ↔ s.port.part = .unconfigured
  silencedIff   : s.bus.ctrl = .silenced ↔ s.port.part = .silenced
  idleIff       : s.comp.state = .idle ↔ s.port.part = .unconfigured
  haltedIff     : s.comp.state = .halted ↔ s.port.part = .silenced
  image         : s.port.part ≠ .unconfigured → s.port.image.isSome
  txIff         : s.bus.tx.isSome ↔ s.bus.ctrl = .transmitting
  receiving     : s.bus.ctrl = .receiving → s.bus.rx.isSome
  rx            : s.bus.rx.isSome →
                    s.bus.ctrl = .receiving ∨ s.bus.ctrl = .resting ∨ s.bus.ctrl = .silenced
  counting      : s.bus.watches = true → s.bus.idle = true ∨ s.bus.idleDue.isSome
  idleBus       : s.bus.idle = true →
                    s.bus.rx = none ∧ s.bus.idleDue = none ∧
                      (s.bus.ctrl = .listening ∨ s.bus.ctrl = .resting ∨ s.bus.ctrl = .silenced)
  restIff       : s.bus.restDue.isSome ↔ s.bus.ctrl = .resting
  slot          : s.port.part ≠ .running → s.bus.slot = none
  strikes       : s.bus.strikes ≤ 16
  resting       : s.bus.ctrl = .resting → s.bus.strikes = 16
  sixteen       : s.bus.strikes = 16 → s.bus.ctrl = .resting ∨ s.bus.ctrl = .silenced
  windows       : s.grade.windowDue.isSome ↔ s.port.part ≠ .unconfigured
  inReset       : s.port.inReset = true →
                    s.port.part = .unconfigured ∧ s.port.csn = none ∧ s.port.busy = false

/-! ## Chain units -/

/-- A drive code, and a code a decoder holds, lies in 1..16 (R5, R22). -/
def codeOk (c : Nat) : Prop := 1 ≤ c ∧ c ≤ 16

/-- A decoder's items agree with its state (R8, R12 to R20). -/
structure DecoderOk (k : Nat) (d : Decoder) : Prop where
  held      : ∀ c, d.held = some c → codeOk c.code
  cand      : ∀ c, d.cand = some c → codeOk c.code
  run       : d.run ≤ k
  unclear   : d.unclear ≤ 16
  faultIff  : d.fault.isSome ↔ d.state = .fault
  heldSome  : d.state = .held → d.held.isSome
  forgotten : d.state = .openLine ∨ d.state = .fault ∨ d.state = .isolated → d.held = none
  measured  : ∀ m, d.measure = some m → m.rise = d.levelFrom ∧ d.state ≠ .isolated
  high      : d.highFrom.isSome → d.state = .parting ∧ d.measure = none

/-- A chain unit as the part leaves it: codes in range, the period count running exactly while no drive
condition holds (R6), and the pending code and the saturated mark that follow the other end's reported count
(R4). In UNCONFIGURED the decoder is held in OPEN (R24). -/
structure ChainOk (s : State) (e : End) : Prop where
  dec          : DecoderOk s.k (s.chain e).dec
  pending      : codeOk (s.chain e).drv.pending
  loaded       : codeOk (s.chain e).drv.loaded
  period       : (s.chain e).drv.periodFrom.isSome = (s.driveHold e).isNone
  follows      : (s.chain e).drv.pending = min 16 (1 + (s.report e.other).count)
  saturated    : (s.chain e).drv.saturated = decide ((s.report e.other).count = 16)
  unconfigured : s.port.part = .unconfigured → (s.chain e).dec.state = .openLine ∧
                   (s.chain e).dec.run = 0

/-- Both chain units. -/
def Chains (s : State) : Prop := ∀ e, ChainOk s e

/-! ## Configuration -/

/-- A configuration image is one CONFIGURE accepts (R156). -/
def ImageOk (s : State) : Prop :=
  ∀ i, s.port.image = some i →
    i.identity ≠ 0 ∧ i.permitted.getLsbD 0 = true ∧ 2 ≤ i.k ∧ i.k ≤ 8

/-! ## Heard table -/

/-- The heard table (R56 to R61): empty in IDLE, else with an entry for the own identity; at most 16 entries,
of different identities, each with an offer of the own epoch. -/
structure TableOk (s : State) : Prop where
  idle     : s.comp.state = .idle → s.comp.table = []
  own      : s.comp.state ≠ .idle → ∃ x ∈ s.comp.table, x.id = s.identity
  length   : s.comp.table.length ≤ 16
  distinct : (s.comp.table.map HeardEntry.id).Nodup
  epochs   : ∀ x ∈ s.comp.table, x.offer.epoch = s.comp.epoch

/-! ## Rosters -/

/-- A roster that a station of some identity built (R105, R107, R108): it has 1..16 positions, names no identity
twice and holds the own identity at the own position; its status, joint parameters and digest are those of its
entries. -/
structure RosterOk (own : Identity) (r : Roster) : Prop where
  length   : 1 ≤ r.n ∧ r.n ≤ 16
  distinct : r.heardIds.Nodup
  ownEntry : r.idAt r.ownPos = some own
  complete : r.status = .complete → .silent ∉ r.entries
  partly   : r.status = .partialRoster → .silent ∈ r.entries
  limp     : r.status = .limp → r.jointGrade = .g1 ∧ r.jointPayload = .p16
  joint    : r.status ≠ .limp →
               r.jointGrade = jointGradeOf r.entries ∧ r.jointPayload = jointPayloadOf r.entries
  digest   : r.digest = digestOf r.entries r.jointGrade r.jointPayload

/-- The three roster slots and the composition state agree (R63, R65, R72, R74, R82, R112): no roster in IDLE, a
pending one exactly in CONFIRM, and in SETTLED and LIMP a current one of that kind and of the own epoch. -/
structure RostersOk (s : State) : Prop where
  each     : ∀ r, s.comp.pendingRoster = some r ∨ s.comp.current = some r ∨ s.comp.previous = some r →
               RosterOk s.identity r
  idle     : s.comp.state = .idle → s.comp.current = none
  previous : s.comp.previous.isSome → s.comp.current.isSome
  pending  : s.comp.pendingRoster.isSome ↔ s.comp.state = .confirm
  found    : ∀ r, s.comp.pendingRoster = some r → r.status ≠ .limp ∧ r.epoch = s.comp.epoch
  settled  : s.comp.state = .settled →
               ∃ r, s.comp.current = some r ∧ r.status ≠ .limp ∧ r.epoch = s.comp.epoch
  limp     : s.comp.state = .limp →
               ∃ r, s.comp.current = some r ∧ r.status = .limp ∧ r.epoch = s.comp.epoch

/-! ## Queues -/

/-- The transmit queue (R125, R127): at most 24 entries with different tickets of 1..255, fewer than three
attempts, a payload of 1..128 bytes, and the lapsed and rename-owed marks only on an entry in flight. -/
structure QueueOk (c : Cargo) : Prop where
  length     : c.queue.length ≤ 24
  distinct   : (c.queue.map TxEntry.ticket).Nodup
  tickets    : ∀ x ∈ c.queue, 1 ≤ x.ticket ∧ x.ticket ≤ 255
  attempts   : ∀ x ∈ c.queue, x.attempts < 3
  payloads   : ∀ x ∈ c.queue, 1 ≤ x.payload.length ∧ x.payload.length ≤ 128
  marks      : ∀ x ∈ c.queue, x.lapsed = true ∨ x.renameOwed = true → x.inFlight = true
  received   : c.received.length ≤ 16
  outcomes   : c.outcomes.length ≤ 32
  lastTicket : 1 ≤ c.lastTicket ∧ c.lastTicket ≤ 255

/-- The ticket of the cargo frame in transmission. -/
def State.flight (s : State) : Option Nat :=
  match s.bus.tx with
  | some ⟨_, .cargo ticket _⟩ => some ticket
  | _ => none

/-- An entry is in flight exactly while its frame is in transmission (R130, R131). -/
def FlightOk (s : State) : Prop :=
  (∀ x ∈ s.cargo.queue, x.inFlight = true ↔ s.flight = some x.ticket) ∧
  (∀ t, s.flight = some t → ∃ x ∈ s.cargo.queue, x.ticket = t)

/-! ## Counts and levels -/

/-- The counts and levels that the spec bounds (R50, R76, R79, R114, R115, R117). -/
structure LevelsOk (s : State) : Prop where
  failed        : s.comp.failed ≤ 255
  disagreements : s.comp.disagreements ≤ 2
  ownSent       : s.comp.ownSent ≤ 255
  errors        : s.grade.errors ≤ 255
  upRun         : s.grade.upRun ≤ 29
  ceiling       : s.grade.ceiling.code ≤ s.grade.limit.code

/-- A safe state. -/
structure Safe (s : State) : Prop where
  modes   : Modes s
  chains  : Chains s
  image   : ImageOk s
  table   : TableOk s
  queue   : QueueOk s.cargo
  flight  : FlightOk s
  rosters : RostersOk s
  levels  : LevelsOk s

/-- A safe run: the machine takes only steps that answer a next state, from a safe state. -/
inductive SafeRun : State → State → Prop where
  | start (s : State) : Safe s → SafeRun s s
  | step (s t u : State) : SafeRun s t → step t = .next u → SafeRun s u

end Sys2Proof.Machine
end

