-- ==== Sys2Proof/Certificates/Slice0/Obligations.lean ====
section
/-! DEFINITION. The statements for the provers, in the order of OBLIGATIONS.json. Instants and durations
are written in chain ticks of 0.25 µs (R1). -/

open Sys2Proof Sys2Proof.Machine

/-! ## The step -/

/-- The step takes the command at the front of the queue, and on an empty queue the timebase counts one chain
tick, or none while RESETN is held low (the model's own queue and idle step, log 1 and log 4). -/
def Obligations.StepTakesFrontCommand : Prop :=
  (∀ (c : Instr) (rest : List Instr) (s : State),
    step { s with pending := c :: rest } = exec c { s with pending := rest }) ∧
  (∀ s : State, s.pending = [] →
    step s = .next { s with now := if s.port.inReset then s.now else s.now + 1 })

/-! ## The local port -/

/-- CONFIGURE in UNCONFIGURED (R154, R156): ten parameter bytes that pass the checks replace the image and the
mask and set ceiling limit and ceiling; fewer than ten bytes, an identity of 0, a permitted set without G1, or
a payload or cab-ends code above 3 give BAD PARAMETER. Nothing else changes. -/
def Obligations.ConfigureReplacesImageOrRefuses : Prop :=
  (∀ (s : State) (mosi : List Bool) (i0 i1 i2 i3 grades pay k cab m0 m1 : Byte) (more : List Byte)
     (pm : PayloadMax) (ce : CabEnds),
     s.ready → s.port.part = .unconfigured →
     i0 ++ i1 ++ i2 ++ i3 ≠ 0#32 → grades.getLsbD 0 = true →
     pm.code = pay.toNat → ce.code = cab.toNat →
     wholeBytes mosi = i0 :: i1 :: i2 :: i3 :: grades :: pay :: k :: cab :: m0 :: m1 :: more →
     exec (.configure (.csnRises mosi)) s =
       .next { s with
         port := { s.port with
           image := some
             { identity := i0 ++ i1 ++ i2 ++ i3, permitted := grades.extractLsb' 0 4
               payloadMax := pm
               k := if k = 0 then 3 else if k = 1 then 2 else min 8 k.toNat
               cabEnds := ce }
           mask := (m0 ++ m1).extractLsb' 0 15
           answer := some [0x00], answerReady := false, overrun := false, busy := true
           csn := none, miso := s.zerosOut mosi.length }
         grade := { s.grade with
           ceiling := ceilingLimit (grades.extractLsb' 0 4)
           limit := ceilingLimit (grades.extractLsb' 0 4) } }) ∧
  (∀ s : State, s.ready → s.port.part = .unconfigured →
     (∀ mosi : List Bool, (wholeBytes mosi).length < 10 →
       exec (.configure (.csnRises mosi)) s = .next (s.answered mosi [0x02])) ∧
     (∀ (mosi : List Bool) (i0 i1 i2 i3 grades pay k cab m0 m1 : Byte) (more : List Byte),
       wholeBytes mosi = i0 :: i1 :: i2 :: i3 :: grades :: pay :: k :: cab :: m0 :: m1 :: more →
       i0 ++ i1 ++ i2 ++ i3 = 0#32 ∨ grades.getLsbD 0 = false ∨ 3 < pay.toNat ∨ 3 < cab.toNat →
       exec (.configure (.csnRises mosi)) s = .next (s.answered mosi [0x02])))

/-- START with an image present (R157): every block begins, the epoch rises by one, and an end whose release
input is asserted makes its chain change into PARTING at that instant (R24). -/
def Obligations.StartBeginsEveryBlock : Prop :=
  ∀ (s : State) (i : Image) (mosi : List Bool),
    s.ready → s.port.part = .unconfigured → s.port.image = some i → s.comp.state = .idle →
    ∃ t, exec (.start (.csnRises mosi)) s = .next t ∧
      t.port = { s.port.answering s mosi [0x00] with
        part := .running, cab := .inactive
        flags := if s.chainA.release || s.chainB.release then s.port.flags ||| 0x000C#15
          else s.port.flags } ∧
      (∀ e, t.chain e =
        { dec := { state := .openLine, held := none, cand := none, run := 0, unclear := 0
                   fault := none, measure := none, levelFrom := s.now, highFrom := none }
          drv := { pending := 1, loaded := 1, saturated := false
                   periodFrom := if (s.chain e).release then none else some s.now }
          release := (s.chain e).release }) ∧
      t.bus = { s.bus with
        ctrl := .listening, idle := false, idleDue := some (s.now + 352), slot := none } ∧
      t.comp.state = .quiet ∧ t.comp.epoch = s.comp.epoch + 1 ∧
      t.comp.reason = (if s.chainA.release || s.chainB.release then .parting else .start) ∧
      t.comp.holdDue = some (s.now + 320000) ∧ t.comp.deadlineDue = some (s.now + 8000000) ∧
      t.comp.pendingRoster = none ∧ t.comp.current = s.comp.current ∧
      t.comp.previous = s.comp.previous ∧ t.comp.failed = s.comp.failed ∧
      t.comp.table.map HeardEntry.id = [i.identity] ∧
      t.grade = { s.grade with
        ceiling := s.grade.limit, errors := 0, upRun := 0, windowDue := some (s.now + 4000000) } ∧
      t.cargo = s.cargo ∧ t.now = s.now ∧ t.pending = s.pending

/-- RESTART in RUNNING or SILENCED (R158): the values of R45, R89, R123 and R148, RESTARTED as the one flag,
and image, mask, cab setting, chain units, counters, last ticket and outcome-loss counter kept. -/
def Obligations.RestartResetsTheBusSide : Prop :=
  ∀ (s : State) (mosi : List Bool), s.ready → s.port.part ≠ .unconfigured →
    ∃ t, exec (.restart (.csnRises mosi)) s = .next t ∧
      t.port = { s.port.answering s mosi [0x00] with part := .running, flags := 0x2000#15 } ∧
      t.chainA = s.chainA ∧ t.chainB = s.chainB ∧
      t.bus =
        { ctrl := .listening, idle := false, idleDue := some (s.now + 352), intermissionEnd := none
          selected := none, slot := none, tx := none, rx := none, strikes := 0, latestRest := none
          restDue := none, firstClash := none, cargoGrade := .g1, counters := s.bus.counters } ∧
      t.comp.state = .quiet ∧ t.comp.epoch = s.comp.epoch + 1 ∧ t.comp.reason = .start ∧
      t.comp.failed = 0 ∧ t.comp.disagreements = 0 ∧ t.comp.pendingRoster = none ∧
      t.comp.current = none ∧ t.comp.previous = none ∧ t.comp.retryDue = none ∧ t.comp.retryFell = none ∧
      t.comp.presenceDue = none ∧ t.comp.watch = [] ∧
      t.comp.table.map HeardEntry.id = [s.identity] ∧
      t.cargo = { s.cargo with queue := [], received := [], outcomes := [] } ∧
      t.grade = { s.grade with
        ceiling := s.grade.limit, errors := 0, upRun := 0, windowDue := some (s.now + 4000000) } ∧
      t.now = s.now ∧ t.pending = s.pending

/-- SET CAB in RUNNING (R154, R159): a setting that the fitted cab ends allow is answered DONE; equal to the
present one it has no further effect, and different from it it is kept and begins a round for the reason CAB.
No parameter, a value above 2, and an active end without a fitted cab are refused with BAD PARAMETER. -/
def Obligations.SetCabReplacesSettingOrRefuses : Prop :=
  (∀ (s : State) (mosi : List Bool) (b : Byte) (more : List Byte) (x : CabSetting),
     wholeBytes mosi = b :: more → s.ready → s.port.part = .running → x.code = b.toNat →
     (x = .activeA → s.cabEnds = .onlyA ∨ s.cabEnds = .both) →
     (x = .activeB → s.cabEnds = .onlyB ∨ s.cabEnds = .both) →
     (x = s.port.cab →
       exec (.setCab (.csnRises mosi)) s = .next (s.answered mosi [0x00])) ∧
     (x ≠ s.port.cab → s.comp.state.takesTriggers →
       ∃ t, exec (.setCab (.csnRises mosi)) s = .next t ∧
         NewRound { s with port := { s.port.answering s mosi [0x00] with cab := x } } t
           (s.comp.epoch + 1) .cab)) ∧
  (∀ s : State, s.ready → s.port.part = .running →
     (∀ mosi : List Bool, mosi.length < 8 →
       exec (.setCab (.csnRises mosi)) s = .next (s.answered mosi [0x02])) ∧
     ∀ (mosi : List Bool) (b : Byte) (more : List Byte), wholeBytes mosi = b :: more →
       2 < b.toNat ∨ (b.toNat = 1 ∧ (s.cabEnds = .neither ∨ s.cabEnds = .onlyB)) ∨
         (b.toNat = 2 ∧ (s.cabEnds = .neither ∨ s.cabEnds = .onlyA)) →
       exec (.setCab (.csnRises mosi)) s = .next (s.answered mosi [0x02]))

/-- ISOLATE (R20, R160): setting isolation on an end that is not isolated clears its decoder, holds its drive
pin low and is a chain change; lifting it from an isolated end makes the decoder OPEN and begins a period or
local release; asking for the state the end is in changes nothing. Fewer than two bytes, an end above 1 and a value
above 1 are refused with BAD PARAMETER (R154). -/
def Obligations.IsolateSetsAndLifts : Prop :=
  (∀ (s : State) (mosi : List Bool), s.ready → s.port.part ≠ .unconfigured →
    (wholeBytes mosi).length < 2 ∨ (∃ b more, wholeBytes mosi = b :: more ∧ 1 < b.toNat) →
    exec (.isolate (.csnRises mosi)) s = .next (s.answered mosi [0x02])) ∧
  ∀ (s : State) (e : End) (mosi : List Bool) (b c : Byte) (more : List Byte), Chains s →
    s.ready → s.port.part ≠ .unconfigured → b.toNat = (if e = .a then 0 else 1) →
    wholeBytes mosi = b :: c :: more →
    (c.toNat = 1 → (s.chain e).dec.state ≠ .isolated →
      ∃ t, exec (.isolate (.csnRises mosi)) s = .next t ∧
        t.chain e =
          { dec := { state := .isolated, held := none, cand := none, run := 0, unclear := 0
                     fault := none, measure := none, levelFrom := s.now, highFrom := none }
            drv := { (s.chain e).drv with periodFrom := none }
            release := (s.chain e).release } ∧
        t.drivePin e = false ∧ t.report e = ⟨.isolated, 0, none⟩ ∧
        t.chain e.other = { s.chain e.other with
          drv := { (s.chain e.other).drv with pending := 1, saturated := false } } ∧
        t.port = { s.port.answering s mosi [0x00] with
          flags := s.port.flags ||| 0x0004#15 } ∧
        t.cargo = s.cargo ∧ t.grade = s.grade ∧ t.now = s.now ∧ t.pending = s.pending ∧
        t.bus = { s.bus with slot := t.bus.slot }) ∧
    (c.toNat = 0 → (s.chain e).dec.state = .isolated →
      ∃ t, exec (.isolate (.csnRises mosi)) s = .next t ∧
        t.chain e =
          { dec := { state := .openLine, held := none, cand := none, run := 0, unclear := 0
                     fault := none, measure := none, levelFrom := s.now, highFrom := none }
            drv := if (s.chain e).release then (s.chain e).drv
              else { (s.chain e).drv with
                loaded := (s.chain e).drv.pending, periodFrom := some s.now }
            release := (s.chain e).release } ∧
        t.report e =
          (if (s.chain e).release then ⟨.parting, 0, none⟩ else ⟨.openEnd, 0, none⟩) ∧
        t.drivePin e = true ∧
        t.chain e.other = { s.chain e.other with
          drv := { (s.chain e.other).drv with pending := 1, saturated := false } } ∧
        t.port = { s.port.answering s mosi [0x00] with
          flags := s.port.flags ||| (if (s.chain e).release then 0x000C#15 else 0x0004#15) } ∧
        t.cargo = s.cargo ∧ t.grade = s.grade ∧ t.now = s.now ∧ t.pending = s.pending ∧
        t.bus = { s.bus with slot := t.bus.slot }) ∧
    ((c.toNat = 1 ∧ (s.chain e).dec.state = .isolated) ∨
        (c.toNat = 0 ∧ (s.chain e).dec.state ≠ .isolated) →
      exec (.isolate (.csnRises mosi)) s = .next (s.answered mosi [0x00])) ∧
    (1 < c.toNat → exec (.isolate (.csnRises mosi)) s = .next (s.answered mosi [0x02]))

/-- RECOMPOSE (R63, R161): in RUNNING it begins a round for the reason COMMAND whatever round runs, foreground or
background as the current roster says, and elsewhere it is refused with NOT NOW. -/
def Obligations.RecomposeBeginsRound : Prop :=
  ∀ (s : State) (mosi : List Bool), s.ready →
    (s.port.part = .running → s.comp.state.takesTriggers →
      ∃ t, exec (.recompose (.csnRises mosi)) s = .next t ∧
        NewRound { s with port := s.port.answering s mosi [0x00] } t (s.comp.epoch + 1) .command ∧
        t.roundKind = (if s.currentIsLimp then .background else .foreground)) ∧
    (s.port.part ≠ .running →
      exec (.recompose (.csnRises mosi)) s = .next (s.answered mosi [0x01]))

/-- SUBMIT accepted (R126, R127, R132): in RUNNING, with a valid destination, a payload within the limits and
fewer than 24 entries queued, the message joins the end of the queue under the next ticket: the first value
after the last one issued, counting 1..255 in a ring, that no queued entry holds; with at most 24 entries held,
one of 25 steps finds it. -/
def Obligations.SubmitQueuesMessage : Prop :=
  (∀ (s : State) (mosi : List Bool) (mode v0 v1 v2 v3 urgency lifetime len : Byte)
    (payload more : List Byte) (d : Dest),
    wholeBytes mosi = mode :: v0 :: v1 :: v2 :: v3 :: urgency :: lifetime :: len :: (payload ++ more) →
    s.ready → s.port.part = .running →
    s.submitDest mode (v0 ++ v1 ++ v2 ++ v3) = some d → urgency.toNat ≤ 1 →
    payload.length = len.toNat → 1 ≤ len.toNat → len.toNat ≤ s.submitMax → len.toNat ≤ 128 →
    s.cargo.queue.length < 24 →
    let ticket := nextTicket s.cargo.lastTicket (s.cargo.queue.map TxEntry.ticket)
    exec (.submit (.csnRises mosi)) s =
      .next { s with
        cargo := { s.cargo with
          lastTicket := ticket
          queue := s.cargo.queue ++
            [{ ticket := ticket, dest := d, urgent := decide (urgency.toNat = 1)
               expiry := if lifetime.toNat = 0 then none
                 else some (s.now + 40000 * lifetime.toNat)
               payload := payload, attempts := 0, inFlight := false, lapsed := false
               renameOwed := false }] }
        port := s.port.answering s mosi [0x00, byteOf ticket] }) ∧
  (∀ (last : Nat) (held : List Nat), 1 ≤ last → last ≤ 255 → held.length ≤ 24 →
    ∃ i, i < 25 ∧ nextTicket last held = (last + i) % 255 + 1 ∧
      nextTicket last held ∉ held ∧ ∀ j, j < i → (last + j) % 255 + 1 ∈ held)

/-- SUBMIT's checks in their order (R126, R154): a length too short for the layout, a destination or urgency
that is not valid, a payload outside the limits, a full queue. A destination is valid (check 2) if it is a
position in 1..16 that is not the own one of a current roster, an identity that is neither 0 nor the own one,
or one of LEADING, TRAILING and ALL, whatever the value; an accepted position is bound exactly when there is a
current roster. The payload limit of check 3 is the smaller of the configured payload maximum and the current roster's
joint payload, and without a current roster the payload maximum alone. -/
def Obligations.SubmitChecksInOrder : Prop :=
  (∀ s : State, s.ready → s.port.part = .running →
     (∀ mosi : List Bool, (wholeBytes mosi).length < 8 →
       exec (.submit (.csnRises mosi)) s = .next (s.answered mosi [0x02])) ∧
     (∀ (mosi : List Bool) (mode v0 v1 v2 v3 urgency lifetime len : Byte) (rest : List Byte),
       wholeBytes mosi = mode :: v0 :: v1 :: v2 :: v3 :: urgency :: lifetime :: len :: rest →
       let needs := if 1 ≤ len.toNat ∧ len.toNat ≤ 128 then len.toNat else 0
       (rest.length < needs →
         exec (.submit (.csnRises mosi)) s = .next (s.answered mosi [0x02])) ∧
       (needs ≤ rest.length →
         (s.submitDest mode (v0 ++ v1 ++ v2 ++ v3) = none ∨ 1 < urgency.toNat →
           exec (.submit (.csnRises mosi)) s = .next (s.answered mosi [0x02])) ∧
         (s.submitDest mode (v0 ++ v1 ++ v2 ++ v3) ≠ none → urgency.toNat ≤ 1 →
           (len.toNat = 0 ∨ s.submitMax < len.toNat →
             exec (.submit (.csnRises mosi)) s = .next (s.answered mosi [0x07])) ∧
           (1 ≤ len.toNat → len.toNat ≤ s.submitMax → 24 ≤ s.cargo.queue.length →
             exec (.submit (.csnRises mosi)) s = .next (s.answered mosi [0x03])))))) ∧
  (∀ (s : State) (mode : Byte) (v : BitVec 32),
     (mode.toNat = 0 → 1 ≤ v.toNat → v.toNat ≤ 16 →
       (∀ r, s.comp.current = some r → r.ownPos ≠ v.toNat) →
       s.submitDest mode v = some (.position v.toNat s.comp.current.isSome)) ∧
     (mode.toNat = 0 → v.toNat = 0 ∨ 16 < v.toNat ∨
         (∃ r, s.comp.current = some r ∧ r.ownPos = v.toNat) → s.submitDest mode v = none) ∧
     (mode.toNat = 1 → v ≠ 0 → v ≠ s.identity → s.submitDest mode v = some (.identity v)) ∧
     (mode.toNat = 1 → v = 0 ∨ v = s.identity → s.submitDest mode v = none) ∧
     (mode.toNat = 2 → s.submitDest mode v = some .leading) ∧
     (mode.toNat = 3 → s.submitDest mode v = some .trailing) ∧
     (mode.toNat = 4 → s.submitDest mode v = some .all) ∧
     (4 < mode.toNat → s.submitDest mode v = none)) ∧
  (∀ (s : State) (i : Image), s.port.image = some i →
     let bytes (p : PayloadMax) : Nat := match p with
       | .p16 => 16
       | .p32 => 32
       | .p64 => 64
       | .p128 => 128
     (∀ r, s.comp.current = some r → s.submitMax = min (bytes i.payloadMax) (bytes r.jointPayload)) ∧
     (s.comp.current = none → s.submitMax = bytes i.payloadMax))

/-- WITHDRAW in RUNNING or SILENCED (R134): a queued entry not in flight leaves with WITHDRAWN, one in flight
answers TOO LATE, and a ticket that no entry holds answers NOT FOUND. -/
def Obligations.WithdrawRemovesQueuedEntry : Prop :=
  ∀ (s : State) (mosi : List Bool), s.ready → s.port.part ≠ .unconfigured →
    let withdraw := Instr.withdraw (.csnRises mosi)
    (mosi.length < 8 → exec withdraw s = .next (s.answered mosi [0x02])) ∧
    ∀ (b : Byte) (more : List Byte), wholeBytes mosi = b :: more →
    (∀ x ∈ s.cargo.queue, x.ticket = b.toNat → (s.cargo.queue.map TxEntry.ticket).Nodup →
      (x.inFlight = true → exec withdraw s = .next (s.answered mosi [0x06])) ∧
      (x.inFlight = false → s.cargo.outcomes.length < 32 →
        exec withdraw s = .next { s with
          cargo := { s.cargo with
            queue := s.cargo.queue.filter (fun y => y.ticket ≠ b.toNat)
            outcomes := s.cargo.outcomes ++ [⟨b.toNat, .withdrawn, none⟩] }
          port := { s.port.answering s mosi [0x00] with
            flags := s.port.flags ||| 0x0040#15 } }) ∧
      (x.inFlight = false → s.cargo.outcomes.length = 32 →
        exec withdraw s = .next { s with
          cargo := { s.cargo with
            queue := s.cargo.queue.filter (fun y => y.ticket ≠ b.toNat)
            outcomeLoss := satInc s.cargo.outcomeLoss }
          port := { s.port.answering s mosi [0x00] with
            flags := s.port.flags ||| 0x1000#15 } })) ∧
    ((∀ x ∈ s.cargo.queue, x.ticket ≠ b.toNat) →
      exec withdraw s = .next (s.answered mosi [0x05]))

/-- TAKE and READ OUTCOMES (R144, R146), in RUNNING or SILENCED: TAKE removes the oldest receive entry and
answers it, READ OUTCOMES removes up to 8 records from the head of the outcome queue and answers their number
and the records in posting order, and an empty queue answers EMPTY. In UNCONFIGURED both answer NOT NOW. The bits
of TAKE's sixth byte that the layout does not name are the model's 0 (log 21). -/
def Obligations.ArrivalsAndOutcomesAreTaken : Prop :=
  ∀ (s : State) (mosi : List Bool), s.ready →
    let take := Instr.take (.csnRises mosi)
    let outcomes := Instr.readOutcomes (.csnRises mosi)
    (s.port.part = .unconfigured →
      exec take s = .next (s.answered mosi [0x01]) ∧
      exec outcomes s = .next (s.answered mosi [0x01])) ∧
    (s.port.part ≠ .unconfigured →
      (s.cargo.received = [] → exec take s = .next (s.answered mosi [0x04])) ∧
      (∀ x xs, s.cargo.received = x :: xs →
        exec take s = .next { s with
          cargo := { s.cargo with received := xs }
          port := s.port.answering s mosi (0x00 ::
            (bytes32 x.source ++ [byteOf x.sourcePos, byteOf x.mode.code,
              (if x.renamed then 0x80 else 0x00) ||| byteOf x.grade.code,
              byteOf x.payload.length] ++ x.payload)) }) ∧
      (s.cargo.outcomes = [] → exec outcomes s = .next (s.answered mosi [0x04])) ∧
      (s.cargo.outcomes ≠ [] →
        exec outcomes s = .next { s with
          cargo := { s.cargo with outcomes := s.cargo.outcomes.drop 8 }
          port := s.port.answering s mosi
            (0x00 :: byteOf (min 8 s.cargo.outcomes.length) ::
              (s.cargo.outcomes.take 8).flatMap (fun o =>
                [byteOf o.ticket, byteOf o.kind.code, byteOf (o.finalPos.getD 0)])) }))

/-- READ ROSTER in RUNNING or SILENCED (R113): DONE with header and entries of the named roster, EMPTY where
the slot holds none, BAD PARAMETER for another parameter or none. READ STATE in every part state (R163): DONE
with the record of section 10.3.3, all of its 63 bytes. The part does not change. READ EVENTS in every part state (R164): DONE with the flags that
are set, which are cleared, and INTN is released. Unnamed bits of the layouts are the model's 0 (log 21). -/
def Obligations.RosterStateAndEventsAreRead : Prop :=
  (∀ (s : State) (mosi : List Bool), s.ready → s.port.part ≠ .unconfigured →
    let read := Instr.readRoster (.csnRises mosi)
    (mosi.length < 8 → exec read s = .next (s.answered mosi [0x02])) ∧
    ∀ (b : Byte) (more : List Byte), wholeBytes mosi = b :: more →
    (∀ r, (b.toNat = 0 ∧ s.comp.current = some r) ∨ (b.toNat = 1 ∧ s.comp.previous = some r) →
      exec read s =
        .next (s.answered mosi (0x00 ::
          [r.epoch.extractLsb' 8 8, r.epoch.extractLsb' 0 8, r.tag.extractLsb' 8 8, r.tag.extractLsb' 0 8,
           r.digest.extractLsb' 24 8, r.digest.extractLsb' 16 8, r.digest.extractLsb' 8 8,
           r.digest.extractLsb' 0 8, byteOf r.n, byteOf r.ownPos,
           byteOf r.status.code ||| (if r.cabConflict then 0x10 else 0) |||
             (if r.noCab then 0x20 else 0) ||| (if r.split then 0x40 else 0),
           byteOf (16 * r.jointGrade.code + r.jointPayload.code)] ++
          r.entries.flatMap (fun x => match x with
            | .silent => [0x00]
            | .heard id o cab c m =>
              [0x80 ||| (if o = .reversed then 0x40 else 0) |||
                 byteOf (16 * c.code + 4 * m.code + cab.code),
               id.extractLsb' 24 8, id.extractLsb' 16 8, id.extractLsb' 8 8, id.extractLsb' 0 8])))) ∧
    ((b.toNat = 0 ∧ s.comp.current = none) ∨ (b.toNat = 1 ∧ s.comp.previous = none) →
      exec read s = .next (s.answered mosi [0x04])) ∧
    (1 < b.toNat → exec read s = .next (s.answered mosi [0x02]))) ∧
  (∀ (s : State) (mosi : List Bool), s.ready →
    exec (.readState (.csnRises mosi)) s = .next (s.answered mosi (0x00 :: s.record))) ∧
  (∀ s : State, s.record.length = 63 ∧
    let two (w : BitVec 16) : List Byte := [w.extractLsb' 8 8, w.extractLsb' 0 8]
    let four (w : BitVec 32) : List Byte := two (w.extractLsb' 16 16) ++ two (w.extractLsb' 0 16)
    let grade (g : Grade) : Byte := byteOf ([Grade.g1, .g2, .g3, .g4].idxOf g)
    let anEnd (e : End) : List Byte :=
      let d := (s.chain e).dec
      let v := (s.chain e).drv
      let t := s.report e
      [byteOf ([DecState.openLine, .acquiring, .held, .parting, .fault, .isolated].idxOf d.state),
       byteOf ([none, some FaultReason.unclear, some .stuckHigh].idxOf d.fault),
       byteOf ([EndState.openEnd, .held, .parting, .fault, .isolated].idxOf t.state),
       (if v.saturated then 0x80 else 0) |||
         byteOf (32 * [none, some End.a, some .b].idxOf t.facing + t.count % 32),
       byteOf v.loaded, byteOf v.pending,
       (if d.state = .isolated then 0x01 else 0) ||| (if (s.chain e).release then 0x02 else 0)]
    let c := s.bus.counters
    s.record =
      [byteOf ([PartState.unconfigured, .running, .silenced].idxOf s.port.part),
       byteOf ([CabSetting.inactive, .activeA, .activeB].idxOf s.port.cab)] ++
      (match s.port.image with
        | none => List.replicate 9 0
        | some i => [1] ++ four i.identity ++
            [i.permitted.setWidth 8, byteOf ([PayloadMax.p16, .p32, .p64, .p128].idxOf i.payloadMax),
             byteOf i.k, byteOf ([CabEnds.neither, .onlyA, .onlyB, .both].idxOf i.cabEnds)]) ++
      [0] ++ two (s.port.mask.setWidth 16) ++
      [byteOf ([CompState.idle, .quiet, .offer, .confirm, .settled, .limp, .halted].idxOf s.comp.state),
       if s.comp.state ∈ [CompState.quiet, .offer, .confirm] then
         (if s.comp.current.map Roster.status = some .limp then 2 else 1) else 0] ++
      two s.comp.epoch ++
      [byteOf ([Reason.noReason, .chain, .parting, .cab, .ceiling, .command, .clash, .start, .limpRetry,
         .memberLost, .digestMismatch, .strangerOffer, .roundFailed, .newerEpoch].idxOf s.comp.reason),
       byteOf s.comp.failed] ++
      anEnd .a ++ anEnd .b ++
      [byteOf ([Ctrl.off, .listening, .transmitting, .receiving, .resting, .silenced].idxOf s.bus.ctrl),
       byteOf s.bus.strikes, grade s.bus.cargoGrade, grade s.grade.ceiling, grade s.grade.limit,
       byteOf s.cargo.queue.length, byteOf s.cargo.received.length, byteOf s.cargo.outcomes.length,
       byteOf s.cargo.lastTicket] ++
      [c.format, c.crc, c.stuff, c.truncation, c.gradeSkip, c.stranger, c.stale, c.foreign, c.overrun].flatMap two ++
      two s.cargo.outcomeLoss) ∧
  (∀ (s : State) (mosi : List Bool), s.ready →
    ∃ t, exec (.readEvents (.csnRises mosi)) s = .next t ∧
      t = { s with port := { s.port.answering s mosi
              [0x00, (s.port.flags.setWidth 16).extractLsb' 8 8,
               (s.port.flags.setWidth 16).extractLsb' 0 8] with flags := 0 } } ∧
      t.intn = false)

/-- Transactions (R149, R150, R152, R153, R165). A fall of CSN captures the status byte, whichever row the transaction
will carry, and does nothing while RESETN is held low; a rise without a transaction does nothing. Each SCK cycle
clocks out one bit: the captured byte first, most significant bit first, then zeros in a status read, and in READ
ANSWER the answer and zeros, or NONE where there is no answer or a command is executing. MOSI bytes are read most
significant bit first, and the bits of an incomplete last byte are discarded. Nothing but the transaction and the record of the output changes. Overruns (R152): while the port is busy every command
is discarded at its end with the overrun mark set and nothing else done, READ ANSWER leaves the mark, and ANSWER READY
completes the executing command's answer. That the answer is the one that stands at the rise, and that a fall ends a transaction in progress, is the model's (log 19). -/
def Obligations.TransactionsClockOut : Prop :=
  (∀ s : State,
    s.statusByte.getLsbD 7 = s.port.answerReady ∧
    s.statusByte.getLsbD 6 = decide (s.port.flags &&& s.port.mask ≠ 0) ∧
    s.statusByte.extractLsb' 4 2 = BitVec.ofNat 2 s.port.part.code ∧
    s.statusByte.getLsbD 3 = s.port.overrun ∧ s.statusByte.extractLsb' 0 3 = 0) ∧
  (∀ (c : Instr) (s : State), portTransfer c = some .csnFalls →
    (s.port.inReset = false → exec c s = .next { s with port := { s.port with
      csn := some s.statusByte, miso := [] } }) ∧
    (s.port.inReset = true → exec c s = .next s)) ∧
  (∀ (c : Instr) (x : Transfer) (s : State), portTransfer c = some x → x ≠ .csnFalls →
    s.port.csn = none → exec c s = .next s) ∧
  (∀ (c : Instr) (s : State) (n : Nat) (b : Byte), portTransfer c = some (.statusRead n) →
    s.port.csn = some b →
    exec c s = .next { s with port := { s.port with
      csn := none
      miso := (bitsOf 8 b.toNat).take n ++ List.replicate (n - 8) false } }) ∧
  (∀ (s : State) (mosi : List Bool) (b : Byte), s.port.csn = some b →
    let event := Instr.readAnswer (.csnRises mosi)
    let n := mosi.length
    let sends (a : List Byte) := { s with port := { s.port with
      csn := none
      miso := bitsOf 8 b.toNat ++ (bitsOfBytes a).take n ++ List.replicate (n - 8 * a.length) false } }
    (∀ a, s.port.busy = false → s.port.answer = some a → exec event s = .next (sends a)) ∧
    (s.port.busy = true ∨ s.port.answer = none → exec event s = .next (sends [0xFF]))) ∧
  (∀ b : Byte, bitsOf 8 b.toNat =
    [b.getLsbD 7, b.getLsbD 6, b.getLsbD 5, b.getLsbD 4, b.getLsbD 3, b.getLsbD 2, b.getLsbD 1,
     b.getLsbD 0]) ∧
  (∀ (code : Byte) (data : List Byte) (tail : List Bool), tail.length < 8 →
    let mosi := bitsOfBytes data ++ tail
    wholeBytes mosi = data ∧
    (∀ row, rowOfCode code = some row →
      transactionEvents (bitsOf 8 code.toNat ++ mosi) = [row .csnFalls, row (.csnRises mosi)]) ∧
    (rowOfCode code = none → ∃ row : Transfer → Instr,
      transactionEvents (bitsOf 8 code.toNat ++ mosi) =
        [row .csnFalls, row (.statusRead (8 + mosi.length))]) ∧
    (∃ row : Transfer → Instr,
      transactionEvents tail = [row .csnFalls, row (.statusRead tail.length)])) ∧
  (∀ s : State, s.port.busy = true →
    (∀ (c : Instr) (mosi : List Bool), s.port.csn.isSome →
      commandBits c = some mosi ∨ c = .commandOverrun (.csnRises mosi) →
      exec c s = .next { s with port := { s.port with
        csn := none, overrun := true, miso := s.zerosOut mosi.length } }) ∧
    (∀ x t, exec (.readAnswer x) s = .next t → t.port.overrun = s.port.overrun) ∧
    exec .answerReady s = .next { s with port := { s.port with answerReady := true, busy := false } })

/-- Refusals (R154, R155): a command answered with any code other than DONE carries the code alone and changes no
state of the part. A command that is not available in the part state is refused with NOT NOW, and so is START
without a configuration image. -/
def Obligations.RefusedCommandsChangeNothing : Prop :=
  (∀ (c : Instr) (mosi : List Bool) (s t : State) (code : Byte) (data : List Byte),
    commandBits c = some mosi → s.ready → exec c s = .next t →
    t.port.answer = some (code :: data) → code ≠ 0x00 →
    data = [] ∧ t = s.answered mosi [code]) ∧
  (∀ (c : Instr) (mosi : List Bool) (s : State), commandBits c = some mosi → s.ready →
    availableIn c s.port.part = false ∨ (c = .start (.csnRises mosi) ∧ s.port.image = none) →
    exec c s = .next (s.answered mosi [0x01]))

/-- HARDWARE RESET (R165 and the reset tables of every chapter): at power-on and at the fall of RESETN every block
takes its reset values from any state, MISO is not driven, and RESETN low is held until its rise, which changes
nothing else. What the release inputs and the waiting commands do, the clock at 0, the idle flag while the
controller is OFF, the sense pins' levelFrom and the empty record of MISO are the model's own choices (log 5, log 30,
log 6, log 34, log 23, log 19). -/
def Obligations.HardwareResetValues : Prop :=
  (∀ (s : State) (edge : ResetEdge), edge ≠ .resetnRises →
    ∃ t, exec (.hardwareReset edge) s = .next t ∧
    t = { State.reset with
      chainA := { State.reset.chainA with release := s.chainA.release }
      chainB := { State.reset.chainB with release := s.chainB.release }
      port := { State.reset.port with inReset := decide (edge = .resetnFalls) }
      pending := s.pending } ∧
    t.drivesMiso = false ∧
    t.port.part = .unconfigured ∧ t.port.image = none ∧ t.port.mask = 0 ∧ t.port.cab = .inactive ∧
    t.port.flags = 0 ∧ t.port.answer = none ∧ t.port.answerReady = false ∧
    t.port.overrun = false ∧ t.port.busy = false ∧ t.intn = false ∧
    t.bus.ctrl = .off ∧ t.bus.strikes = 0 ∧ t.bus.slot = none ∧ t.bus.cargoGrade = .g1 ∧
    t.comp.state = .idle ∧ t.comp.epoch = 0 ∧ t.comp.reason = .noReason ∧ t.comp.table = [] ∧
    t.comp.current = none ∧ t.comp.previous = none ∧ t.comp.pendingRoster = none ∧
    t.cargo.queue = [] ∧ t.cargo.received = [] ∧ t.cargo.outcomes = [] ∧
    t.cargo.lastTicket = 255 ∧ t.cargo.outcomeLoss = 0 ∧
    t.grade.ceiling = .g1 ∧ t.grade.limit = .g1 ∧ t.grade.windowDue = none ∧
    (∀ e, (t.chain e).dec.state = .openLine ∧ (t.chain e).drv.pending = 1 ∧
      (t.chain e).drv.loaded = 1 ∧ t.drivePin e = false)) ∧
  (∀ s : State, exec (.hardwareReset .resetnRises) s =
    .next { s with port := { s.port with inReset := false } })

/-! ## The chain lines -/

/-- A period's judgement (R10, with the classes of R9): the class by the length, m by rounding, unclear and
valid periods and the code; an undistorted code c gives m = 4c + 4 and is read as c. -/
def Obligations.PeriodReadAsCode : Prop :=
  (∀ (p h : Nat) (cls : End) (n : Nat),
    (cls = .a ∧ n = 18 ∧ 2700 ≤ p ∧ p ≤ 3060) ∨ (cls = .b ∧ n = 22 ∧ 3300 ≤ p ∧ p ≤ 3740) →
    let m := (4 * n * h + p / 2) / p
    (m % 4 = 2 ∨ m < 7 ∨ 69 < m → candidateOf p h = none) ∧
    (m % 4 ≠ 2 → 7 ≤ m → m ≤ 69 →
      candidateOf p h = some ⟨cls, (m + 1) / 4 - 1⟩ ∧
        1 ≤ (m + 1) / 4 - 1 ∧ (m + 1) / 4 - 1 ≤ 16 ∧
        4 * ((m + 1) / 4 - 1) + 3 ≤ m ∧ m ≤ 4 * ((m + 1) / 4 - 1) + 5)) ∧
  (∀ p h : Nat, p < 2700 ∨ (3060 < p ∧ p < 3300) ∨ 3740 < p → candidateOf p h = none) ∧
  (∀ (e : End) (c : Nat), 1 ≤ c → c ≤ 16 →
    quarterSteps e (160 * periodSteps e) (160 * (c + 1)) = 4 * c + 4 ∧
    candidateOf (160 * periodSteps e) (160 * (c + 1)) = some ⟨e, c⟩)

/-- The pulse train and PERIOD BOUNDARY (R3, R5, R6). Within a period the drive pin is high for one chain step more than
the loaded code says and low for the rest; in UNCONFIGURED and under isolation it is low, and under local release high.
At the end of the period, 18 or 22 chain steps after its beginning, the pending code becomes the loaded code and the
next period begins; nothing else changes. An event taken late does not move the clock back (log 2). -/
def Obligations.PeriodBoundaryLoadsPendingCode : Prop :=
  (∀ (s : State) (e : End),
    (∀ t, s.port.part ≠ .unconfigured → (s.chain e).dec.state ≠ .isolated → (s.chain e).release = false →
      (s.chain e).drv.periodFrom = some t → t ≤ s.now →
      s.now < t + 160 * (match e with | .a => 18 | .b => 22) →
      (s.drivePin e = true ↔ s.now - t < 160 * ((s.chain e).drv.loaded + 1))) ∧
    (s.port.part = .unconfigured ∨ (s.chain e).dec.state = .isolated → s.drivePin e = false) ∧
    (s.port.part ≠ .unconfigured → (s.chain e).dec.state ≠ .isolated → (s.chain e).release = true →
      s.drivePin e = true)) ∧
  ∀ (s : State) (t : Ticks),
    (s.chainA.drv.periodFrom = some t →
      exec (.periodBoundary .a) s = .next { s with
        now := max s.now (t + 2880)
        chainA := { s.chainA with drv := { s.chainA.drv with
          loaded := s.chainA.drv.pending, periodFrom := some (t + 2880) } } }) ∧
    (s.chainB.drv.periodFrom = some t →
      exec (.periodBoundary .b) s = .next { s with
        now := max s.now (t + 3520)
        chainB := { s.chainB with drv := { s.chainB.drv with
          loaded := s.chainB.drv.pending, periodFrom := some (t + 3520) } } })

/-- COMPLETED PERIOD at an end that is not isolated, with a high part below 2.0 ms and a low part below 3.0 ms (R8).
Its completing edge falls no earlier than the period after the first edge that can begin it (log 2, log 23), and it
begins the next measurement. A valid period in ACQUIRING, HELD or FAULT of reason UNCLEAR (R13), and in OPEN, PARTING
or FAULT of reason STUCK HIGH (R12, R17, R18): the run of equal candidates, and the code taken once it reaches k. An
unclear or out-of-range period (R14): the run ends, and the sixteenth in a row puts a decoder in FAULT of reason
UNCLEAR with the FAULT notice. The end then reports by the rows of R22: its held value in HELD, and in ACQUIRING with
one. But for this end's decoder and the chain change it may make nothing changes. No other period completes, and none at an end that is isolated or in UNCONFIGURED. -/
def Obligations.CompletedPeriodTaken : Prop :=
  (∀ (s : State) (e : End) (p h : Nat), Chains s →
     s.port.part ≠ .unconfigured → (s.chain e).dec.state ≠ .isolated →
     0 < h → h < p → h < 8000 → p - h < 12000 →
     let d := (s.chain e).dec
     ∃ t, exec (.completedPeriod e p h) s = .next t ∧ EndEvent s t e ∧
       t.now = max s.now (d.levelFrom + p) ∧ ReportRows t e ∧
       t.chain e = { s.chain e with dec := (t.chain e).dec } ∧
       (t.chain e).dec.measure = some ⟨t.now, none⟩ ∧ (t.chain e).dec.levelFrom = t.now ∧
       (t.chain e).dec.highFrom = none ∧
       (∀ c, candidateOf p h = some c →
         let run := if d.cand = some c then min s.k (d.run + 1) else 1
         (t.chain e).dec.cand = some c ∧ (t.chain e).dec.unclear = 0 ∧
         (d.state = .openLine ∨ d.state = .parting ∨ (d.state = .fault ∧ d.fault = some .stuckHigh) →
           (t.chain e).dec.state = .acquiring ∧ (t.chain e).dec.run = 1 ∧
           (t.chain e).dec.held = d.held ∧ (t.chain e).dec.fault = none) ∧
         (d.state = .acquiring ∨ d.state = .held ∨ (d.state = .fault ∧ d.fault ≠ some .stuckHigh) →
           (t.chain e).dec.run = run ∧
           (s.k ≤ run → (t.chain e).dec.state = .held ∧ (t.chain e).dec.held = some c ∧
             (t.chain e).dec.fault = none) ∧
           (run < s.k → (t.chain e).dec.state = d.state ∧ (t.chain e).dec.held = d.held ∧
             (t.chain e).dec.fault = d.fault))) ∧
       (candidateOf p h = none →
         (t.chain e).dec.run = 0 ∧ (t.chain e).dec.cand = none ∧
         (t.chain e).dec.unclear = min 16 (d.unclear + 1) ∧
         (d.unclear < 15 → (t.chain e).dec.state = d.state ∧ (t.chain e).dec.held = d.held ∧
           (t.chain e).dec.fault = d.fault ∧ t.port = s.port) ∧
         (15 ≤ d.unclear → (t.chain e).dec.state = .fault ∧ (t.chain e).dec.fault = some .unclear ∧
           (t.chain e).dec.held = none ∧
           (d.state ≠ .fault → t.flagSet .fault = true) ∧ (d.state = .fault → t.port = s.port)))) ∧
  (∀ (s : State) (e : End) (p h : Nat),
     s.port.part = .unconfigured ∨ (s.chain e).dec.state = .isolated ∨
       h = 0 ∨ p ≤ h ∨ 8000 ≤ h ∨ 12000 ≤ p - h →
     exec (.completedPeriod e p h) s = .next s)

/-- LOSS, PARTING SENSED and STUCK HIGH (R15 to R18): what each makes of the decoder, what the end then reports, and
that nothing else at this end changes. Loss comes 3.0 ms and parting 2.0 ms after the first instant at which the level
interval can have begun, and stuck high 3.0 s after the rising edge of the interval in which parting was sensed, where
the decoder is still in PARTING; the instants are the model's arithmetic (log 2, log 23), the cleared candidate is log
22's and the unclear run of a parting sensed in PARTING is log 31's. An isolated decoder, or one in UNCONFIGURED,
takes nothing. -/
def Obligations.SteadyLineEvents : Prop :=
  (∀ (s : State) (e : End), Chains s →
    s.port.part ≠ .unconfigured → (s.chain e).dec.state ≠ .isolated →
    let d := (s.chain e).dec
    (∃ t, exec (.loss e) s = .next t ∧ EndEvent s t e ∧
      t.now = max s.now (d.levelFrom + 12000) ∧
      t.chain e = { s.chain e with
        dec := { state := .openLine, held := none, cand := none, run := 0, unclear := 0, fault := none
                 measure := none, levelFrom := t.now, highFrom := none } } ∧
      t.report e =
        (if (s.chain e).release then ⟨.parting, 0, none⟩ else ⟨.openEnd, 0, none⟩)) ∧
    (∃ t, exec (.partingSensed e) s = .next t ∧ EndEvent s t e ∧
      t.now = max s.now (d.levelFrom + 8000) ∧
      t.chain e = { s.chain e with
        dec := { state := .parting, held := d.held, cand := none, run := 0, unclear := 0, fault := none
                 measure := none, levelFrom := t.now, highFrom := some (t.now - 8000) } } ∧
      t.report e = ⟨.parting, 0, none⟩) ∧
    (∀ r, d.state = .parting → d.highFrom = some r →
      ∃ t, exec (.stuckHigh e) s = .next t ∧ EndEvent s t e ∧
        t.now = max s.now (r + 12000000) ∧
        t.chain e = { s.chain e with
          dec := { state := .fault, held := none, cand := none, run := 0, unclear := 0
                   fault := some .stuckHigh, measure := none, levelFrom := t.now, highFrom := none } } ∧
        t.report e =
          (if (s.chain e).release then ⟨.parting, 0, none⟩ else ⟨.fault, 0, none⟩) ∧
        t.flagSet .fault = true) ∧
    (d.state ≠ .parting ∨ d.highFrom = none → exec (.stuckHigh e) s = .next s)) ∧
  (∀ (s : State) (e : End),
    s.port.part = .unconfigured ∨ (s.chain e).dec.state = .isolated →
    exec (.loss e) s = .next s ∧ exec (.partingSensed e) s = .next s ∧
      exec (.stuckHigh e) s = .next s)

/-- RELEASE ASSERTED and RELEASE DEASSERTED (R6, R21): the input of the end changes, its decoder does not; an
asserted release of an end that is not isolated stops the period count, holds the drive pin high and reports PARTING;
when it ends the end reports its decoder's state again, by the rows of R22, and the generator begins a period with its
pending code. In UNCONFIGURED the input has no effect (R2). -/
def Obligations.ReleaseInputActsOnItsEnd : Prop :=
  ∀ (s : State) (e : End), Chains s →
    (∃ t, exec (.releaseAsserted e) s = .next t ∧ EndEvent s t e ∧ t.now = s.now ∧
      t.chain e =
        { dec := (s.chain e).dec, drv := { (s.chain e).drv with periodFrom := none }, release := true } ∧
      (s.port.part ≠ .unconfigured → (s.chain e).dec.state ≠ .isolated →
        t.drivePin e = true ∧ t.report e = ⟨.parting, 0, none⟩) ∧
      (s.port.part = .unconfigured ∨ (s.chain e).dec.state = .isolated →
        t.report e = s.report e ∧ t.drivePin e = false)) ∧
    (∃ t, exec (.releaseDeasserted e) s = .next t ∧ EndEvent s t e ∧ t.now = s.now ∧
      (t.chain e).release = false ∧ (t.chain e).dec = (s.chain e).dec ∧
      (s.port.part ≠ .unconfigured → ReportRows t e) ∧
      (s.port.part ≠ .unconfigured → (s.chain e).dec.state ≠ .isolated → (s.chain e).release = true →
        (t.chain e).drv = { (s.chain e).drv with
          loaded := (s.chain e).drv.pending, periodFrom := some s.now } ∧ t.drivePin e = true) ∧
      (s.port.part = .unconfigured ∨ (s.chain e).dec.state = .isolated ∨ (s.chain e).release = false →
        (t.chain e).drv = (s.chain e).drv ∧ t.report e = s.report e))

/-- Chain changes (R4, R23): whatever command or event changes an end's reported triple sets CHAIN, sets PARTING
too where the new end state is PARTING and the old was not, and the other end's pending code and saturated
mark follow the new count; a hardware reset clears the flags instead. Where an event of the chain units or ISOLATE
changed it, the composition engine takes its CHAIN or PARTING trigger: in QUIET the hold begins again and the epoch
stays, in OFFER, CONFIRM, SETTLED and LIMP a new round begins, and in HALTED nothing happens (R65 to R67, R88). -/
def Obligations.ChainChangeIsNotified : Prop :=
  (∀ (c : Instr) (s t : State) (e : End), Safe s → (∀ edge, c ≠ .hardwareReset edge) →
    exec c s = .next t → t.report e ≠ s.report e →
    t.flagSet .chain = true ∧
    ((t.report e).state = .parting → (s.report e).state ≠ .parting → t.flagSet .parting = true) ∧
    (t.chain e.other).drv.pending = min 16 (1 + (t.report e).count) ∧
    (t.chain e.other).drv.saturated = decide (16 < 1 + (t.report e).count)) ∧
  (∀ (c : Instr) (s t : State) (e : End), Chains s → actsOnEnd c e → exec c s = .next t →
    t.report e ≠ s.report e → ChainTrigger s t e)

/-! ## The train bus -/

/-- Sending and receiving agree (R26 to R30, R36, R37): a receiver that has seen the start bit of a frame a
station can send, at a grade it permits, takes its further wire bits to the last bit of the end field and has
the frame, and its count to idle is the sender's. -/
def Obligations.ReceiverReadsWireBits : Prop :=
  ∀ (permitted : BitVec 4) (f : Frame), f.Readable permitted →
    Rx.afterStart.feed permitted (f.wireBits.drop 1) = .complete f ∧
    Rx.afterStart.idleAfter permitted (f.wireBits.drop 1) = f.idleAfter (f.wireBits.length - 1)

/-- Frame bodies read back (R53, R130, R141, R173 to R175): the body of an offer that stations can build, of a
confirm with a position in 1..16 and of a presence is read as that frame, and any other body is malformed: what is read
is of the frame's class and has exactly that body, with triples that an end can report, a saturated mark only where the
other end counts 16, and a position in 1..16. The cargo body the router fixes for an entry is read with the consist tag,
wire destination, source position and payload it was built from. A cargo body is read byte by byte: tag, mode, four bytes of value, source position, payload length, payload; a mode above 2,
a value or position out of range, a payload length of 0, above 128 or not the payload's, and a body too short for
the layout make it malformed. -/
def Obligations.BodiesReadBack : Prop :=
  (∀ f : CompFrame,
     (∀ o, f = .offer o → o.wellFormed = true) →
     (∀ e d p, f = .confirm e d p → 1 ≤ p ∧ p ≤ 16) →
     compFrameOfBody? f.cls f.body = some f) ∧
  (∀ (cls : Nat) (body : List Byte) (f : CompFrame), compFrameOfBody? cls body = some f →
     f.cls = cls ∧ f.body = body ∧
     (∀ o, f = .offer o → o.wellFormed = true) ∧ (∀ e d p, f = .confirm e d p → 1 ≤ p ∧ p ≤ 16)) ∧
  (∀ o : OfferFields,
     let reportable (t : Triple) := (t.state ≠ .held ∧ t.count = 0 ∧ t.facing = none) ∨
       (t.state = .held ∧ 1 ≤ t.count ∧ t.count ≤ 16 ∧ t.facing ≠ none)
     o.wellFormed = true ↔
       reportable o.endA.report ∧ reportable o.endB.report ∧
       (o.endA.saturated = true → o.endB.report.count = 16) ∧
       (o.endB.saturated = true → o.endA.report.count = 16)) ∧
  (∀ (cur : Roster) (x : TxEntry),
     1 ≤ cur.ownPos → cur.ownPos ≤ 16 → 1 ≤ cur.n → cur.n ≤ 16 →
     1 ≤ x.payload.length → x.payload.length ≤ 128 →
     (∀ p b, x.dest = .position p b → 1 ≤ p ∧ p ≤ 16) → (∀ id, x.dest = .identity id → id ≠ 0) →
     cargoBodyOf? (cargoBody cur x) =
       some
         { tag := cur.tag
           dest := match x.dest with
             | .position p _ => .position p
             | .identity id => .identity id
             | .leading => .position 1
             | .trailing => .position cur.n
             | .all => .all
           sourcePos := cur.ownPos
           payload := x.payload }) ∧
  (∀ (t0 t1 mode v0 v1 v2 v3 pos len : Byte) (payload : List Byte),
     let body := t0 :: t1 :: mode :: v0 :: v1 :: v2 :: v3 :: pos :: len :: payload
     let fits := payload.length = len.toNat ∧ 1 ≤ len.toNat ∧ len.toNat ≤ 128 ∧
       1 ≤ pos.toNat ∧ pos.toNat ≤ 16
     let reads (d : WireDest) := cargoBodyOf? body = some ⟨t0 ++ t1, d, pos.toNat, payload⟩
     (fits → mode.toNat = 0 → 1 ≤ v3.toNat → v3.toNat ≤ 16 → reads (.position v3.toNat)) ∧
     (fits → mode.toNat = 1 → v0 ++ v1 ++ v2 ++ v3 ≠ 0#32 → reads (.identity (v0 ++ v1 ++ v2 ++ v3))) ∧
     (fits → mode.toNat = 2 → reads .all) ∧
     (¬fits ∨ (mode.toNat = 0 ∧ (v3.toNat = 0 ∨ 16 < v3.toNat)) ∨
         (mode.toNat = 1 ∧ v0 ++ v1 ++ v2 ++ v3 = 0#32) ∨ 2 < mode.toNat →
       cargoBodyOf? body = none)) ∧
  (∀ body : List Byte, body.length < 9 → cargoBodyOf? body = none)

/-- BUS IDLE and INTERMISSION PASSED with a composition frame waiting (R26, R31, R32): a controller that is LISTENING
with no reception in progress, on a bus that becomes idle or is idle and with its own intermission passed, sends the
slot's frame at G1; no cargo entry is named. On a bus that is not idle only the intermission ends. That BUS IDLE is
taken again on an idle bus, that the slot empties at the start bit, and the clock of a late event are the model's own
(log 10, log 13, log 2). -/
def Obligations.IdleBusSendsCompositionFrame : Prop :=
  (∀ (s : State) (f : CompFrame),
     s.bus.ctrl = .listening → s.bus.rx = none → s.bus.slot = some f →
     s.bus.idle = true ∨ s.bus.idleDue.isSome →
     (∀ t, s.bus.intermissionEnd = some t → t ≤ max s.now (s.bus.idleDue.getD 0)) →
     exec .busIdle s = .next { s with
       now := max s.now (s.bus.idleDue.getD 0)
       bus := { s.bus with
         ctrl := .transmitting, idle := false, idleDue := none, intermissionEnd := none
         selected := none, slot := none
         tx := some ⟨{ cls := f.cls, source := s.identity, grade := .g1, body := f.body }, .comp f⟩ } }) ∧
  (∀ (s : State) (t : Ticks), s.bus.intermissionEnd = some t →
     (∀ f, s.bus.idle = true → s.bus.ctrl = .listening → s.bus.slot = some f →
       exec .intermissionPassed s = .next { s with
         now := max s.now t
         bus := { s.bus with
           ctrl := .transmitting, idle := false, idleDue := none, intermissionEnd := none
           selected := none, slot := none
           tx := some ⟨{ cls := f.cls, source := s.identity, grade := .g1, body := f.body },
             .comp f⟩ } }) ∧
     (s.bus.idle = false →
       exec .intermissionPassed s = .next { s with
         now := max s.now t
         bus := { s.bus with intermissionEnd := none } }))

/-- BUS IDLE with cargo (R129, R130): with the slot empty, the cargo gate open and the own intermission passed, the
oldest URGENT entry, or with none the oldest ROUTINE one, goes in flight with its frame fixed from the entry and
the current roster; its place in the queue stays. One that is LEADING or TRAILING and would go to the station itself
leaves with UNRESOLVED, and the choice is made again of the entries that remain, as if it had not been there; where none
remains the bus is idle and nothing is sent. On a bus already idle, BUS IDLE is taken again for cargo submitted
meanwhile (log 10); a late event does not move the clock back (log 2). -/
def Obligations.IdleSendsHeadCandidate : Prop :=
  ∀ (s : State) (cur : Roster) (before after : List TxEntry) (x : TxEntry),
    s.bus.ctrl = .listening → s.bus.rx = none → s.bus.slot = none →
    s.bus.idle = true ∨ s.bus.idleDue.isSome →
    (∀ t, s.bus.intermissionEnd = some t → t ≤ max s.now (s.bus.idleDue.getD 0)) →
    s.gateOpen = true → s.comp.current = some cur →
    (s.cargo.queue = [] → exec .busIdle s = .next { s with
      now := max s.now (s.bus.idleDue.getD 0)
      bus := { s.bus with idle := true, idleDue := none, selected := none } }) ∧
    (s.cargo.queue = before ++ x :: after → (s.cargo.queue.map TxEntry.ticket).Nodup →
      (∀ y ∈ s.cargo.queue, y.inFlight = false) →
      (x.urgent = true → ∀ y ∈ before, y.urgent = false) →
      (x.urgent = false → before = [] ∧ ∀ y ∈ s.cargo.queue, y.urgent = false) →
      let own := (x.dest = .leading ∧ cur.ownPos = 1) ∨ (x.dest = .trailing ∧ cur.ownPos = cur.n)
      (¬own → exec .busIdle s = .next { s with
        now := max s.now (s.bus.idleDue.getD 0)
        cargo := { s.cargo with queue := before ++ { x with inFlight := true } :: after }
        bus := { s.bus with
          ctrl := .transmitting, idle := false, idleDue := none, intermissionEnd := none
          selected := none
          tx := some
            ⟨{ cls := if x.urgent then 4 else 6, source := s.identity, grade := s.bus.cargoGrade
               body := cargoBody cur x },
             .cargo x.ticket (wireDest cur x.dest).2.2⟩ } }) ∧
      (own → s.cargo.outcomes.length < 32 →
        exec .busIdle s = exec .busIdle { s with
          cargo := { s.cargo with
            queue := before ++ after
            outcomes := s.cargo.outcomes ++ [⟨x.ticket, .unresolved, none⟩] }
          port := { s.port with flags := s.port.flags ||| 0x0040#15 } }))

/-- START BIT SEEN (R26, R36): from idle a reception begins, in RESTING and SILENCED without a change of state,
and the naming of a frame lapses; before idle it is no start bit, which R32's last sentence leaves open and the model
takes from R26 (log 35). Either way the idle count begins again. -/
def Obligations.StartBitBeginsReception : Prop :=
  ∀ s : State, s.bus.rx = none →
    (s.bus.idle = true →
      s.bus.ctrl = .listening ∨ s.bus.ctrl = .resting ∨ s.bus.ctrl = .silenced →
      exec .startBitSeen s = .next { s with bus := { s.bus with
        ctrl := if s.bus.ctrl = .listening then .receiving else s.bus.ctrl
        idle := false, idleDue := some (s.now + 352), intermissionEnd := none, selected := none
        rx := some { last := false, run := 1, taken := [], endBits := 0, waiting := false
                     recessive := 0, bitTime := 32 } } }) ∧
    (s.bus.idle = false →
      s.bus.ctrl = .listening ∨ s.bus.ctrl = .resting ∨ s.bus.ctrl = .silenced →
      exec .startBitSeen s = .next { s with bus := { s.bus with
        idleDue := some (s.now + 352) } })

/-- FRAME RECEIVED, a cargo frame of another station (R36, R39, R141 to R143). Under the current roster's tag it is
accepted where it is for ALL, for the own identity or for the own position; under the previous roster's tag where it
is for ALL, for the own identity, or for the position the own identity had there, which is marked renamed. An
accepted frame joins the receive queue and sets CARGO, or is dropped with RX LOST where the queue holds 16 entries.
One for another station, and a malformed body, have no further effect; one under neither tag, or without a current
roster, is foreign. The instant of idle is the model's arithmetic (log 12). -/
def Obligations.FrameReceivedStoresCargo : Prop :=
  ∀ (s : State) (f : Frame),
    s.bus.rx = some .afterStart →
    s.bus.ctrl = .receiving ∨ s.bus.ctrl = .resting ∨ s.bus.ctrl = .silenced →
    f.Readable s.permitted → f.cls = 4 ∨ f.cls = 6 → f.source ≠ s.identity →
    let event := Instr.frameReceived (f.wireBits.drop 1)
    let heard := { s with bus := s.bus.afterFrame s.now f }
    let foreign := { s with bus := { s.bus.afterFrame s.now f with
      counters := { s.bus.counters with foreign := satInc s.bus.counters.foreign } } }
    (cargoBodyOf? f.body = none → exec event s = .next heard) ∧
    (∀ b, cargoBodyOf? f.body = some b →
      let arrived (renamed : Bool) := State.arrived
        { source := f.source, sourcePos := b.sourcePos, mode := b.dest.mode, renamed := renamed
          grade := f.grade, payload := b.payload } heard
      (s.comp.current = none → exec event s = .next foreign) ∧
      (∀ cur, s.comp.current = some cur →
        (b.tag = cur.tag →
          (b.dest = .all ∨ b.dest = .identity s.identity ∨ b.dest = .position cur.ownPos →
            exec event s = .next (arrived false)) ∧
          (b.dest ≠ .all → b.dest ≠ .identity s.identity → b.dest ≠ .position cur.ownPos →
            exec event s = .next heard)) ∧
        (∀ prev, s.comp.previous = some prev → b.tag ≠ cur.tag → b.tag = prev.tag →
          (b.dest = .all ∨ b.dest = .identity s.identity →
            exec event s = .next (arrived false)) ∧
          (∀ p, b.dest = .position p → prev.idAt p = some s.identity →
            exec event s = .next (arrived true)) ∧
          (∀ p, b.dest = .position p → prev.idAt p ≠ some s.identity →
            exec event s = .next heard) ∧
          (∀ id, b.dest = .identity id → id ≠ s.identity → exec event s = .next heard)) ∧
        (b.tag ≠ cur.tag → (∀ prev, s.comp.previous = some prev → b.tag ≠ prev.tag) →
          exec event s = .next foreign)))

/-- FRAME RECEIVED, a composition frame of another station (R39, R53 to R55, R62): in IDLE and HALTED, from identity 0
and malformed it is discarded; else its sender is noted as heard and the frame is judged by its kind. The instant of
idle is the model's arithmetic (log 12). -/
def Obligations.FrameReceivedDeliversComposition : Prop :=
  ∀ (s : State) (f : Frame),
    s.bus.rx = some .afterStart →
    s.bus.ctrl = .receiving ∨ s.bus.ctrl = .resting ∨ s.bus.ctrl = .silenced →
    f.Readable s.permitted → f.cls ≤ 3 → f.source ≠ s.identity →
    let event := Instr.frameReceived (f.wireBits.drop 1)
    let heard := { s with bus := s.bus.afterFrame s.now f }
    let noted := { heard with comp := s.comp.noted f.source s.now }
    (s.comp.state = .idle ∨ s.comp.state = .halted ∨ f.source = 0 ∨
        compFrameOfBody? f.cls f.body = none → exec event s = .next heard) ∧
    (s.comp.state ≠ .idle → s.comp.state ≠ .halted → f.source ≠ 0 →
      (∀ o, compFrameOfBody? f.cls f.body = some (.offer o) →
        exec event s = .next (noted.receiveOffer f.source o)) ∧
      (∀ e d p, compFrameOfBody? f.cls f.body = some (.confirm e d p) →
        exec event s = .next (noted.receiveConfirm f.source e d p)) ∧
      (∀ e d, compFrameOfBody? f.cls f.body = some (.presence e d) →
        exec event s = .next (noted.receivePresence f.source e d)))

/-- FRAME RECEIVED, a clash (R40, R41, R171): in RECEIVING and RESTING a frame of the own identity that the station did
not complete is a first clash, with CLASH and a round, or within 10 s of the recorded one the stop; in SILENCED it has
no effect. The instant of idle is the model's arithmetic (log 12). -/
def Obligations.FrameReceivedOwnIdentityIsClash : Prop :=
  ∀ (s : State) (f : Frame),
    s.bus.rx = some .afterStart → f.Readable s.permitted → f.source = s.identity →
    (s.bus.ctrl = .silenced →
      exec (.frameReceived (f.wireBits.drop 1)) s = .next { s with bus := s.bus.afterFrame s.now f }) ∧
    (s.bus.ctrl = .receiving ∨ s.bus.ctrl = .resting →
      ((∀ t, s.bus.firstClash = some t → t + 40000000 < s.now) → s.comp.state.takesTriggers →
        ∃ t, exec (.frameReceived (f.wireBits.drop 1)) s = .next t ∧
          NewRound { s with
            bus := { s.bus.afterFrame s.now f with firstClash := some s.now }
            port := { s.port with flags := s.port.flags ||| 0x0100#15 } } t
            (s.comp.epoch + 1) .clash) ∧
      (∀ c, s.bus.firstClash = some c → s.now ≤ c + 40000000 →
        ∃ t, exec (.frameReceived (f.wireBits.drop 1)) s = .next t ∧
          PartStops { s with bus := s.bus.afterFrame s.now f } t))

/-- Receive errors (R28 to R30, R37, R38), at the bit that shows them, whatever bits follow it: a class of 0, 5 or 7, a
body grade other than G1 in classes 1 to 3, a body length above 140 and a dominant end-field bit raise the
format-error counter; a sixth dominant bit in a row, and a dominant bit before idle after six recessive ones, the
stuff-error counter; a CRC that differs the CRC counter, after the stuff bit due behind it if there is one; six
recessive bits and then idle the truncation counter. Each ends the reception and reports one error to the grade
monitor. A body grade not permitted ends it with a grade skip and no error. The instant of idle is the model's
arithmetic (log 12, log 2); idle with six recessive bits waiting is log 9's. -/
def Obligations.ReceiveErrorsAreCounted : Prop :=
  (∀ (s : State) (r : Rx) (b : Bool) (more : List Bool), s.bus.rx = some r →
     let bits := (b :: r.taken).reverse
     let length := numOf ((bits.drop 37).take 8)
     let covered := bits.take (45 + 8 * length)
     let event := Instr.frameReceived (b :: more)
     let ended (counters : Counters) : Bus := { s.bus with
       ctrl := if s.bus.ctrl = .receiving then .listening else s.bus.ctrl, rx := none
       idleDue := some (s.now + (r.hear b).untilIdle), counters := counters }
     let failed (n : CounterName) : State := { s with
       bus := ended (s.bus.counters.raise n)
       grade := { s.grade with errors := min 255 (s.grade.errors + 1) } }
     let content := r.waiting = false ∧ r.run ≠ 5 ∧ r.contentComplete = false
     (content → bits.length = 3 → numOf bits = 0 ∨ numOf bits = 5 ∨ numOf bits = 7 →
       exec event s = .next (failed .format)) ∧
     (content → bits.length = 37 → numOf (bits.take 3) ≤ 3 → numOf (bits.drop 35) ≠ 0 →
       exec event s = .next (failed .format)) ∧
     (content → bits.length = 45 → 140 < length → exec event s = .next (failed .format)) ∧
     (content → bits.length = 45 → length ≤ 140 →
       permits s.permitted (Grade.ofCode (numOf ((bits.drop 35).take 2))) = false →
       exec event s = .next { s with bus := ended (s.bus.counters.raise .gradeSkip) }) ∧
     (content → 61 ≤ bits.length → bits.length = 61 + 8 * length → r.run ≠ 4 ∨ b ≠ r.last →
       (crc16 covered 0xFFFF#16).toNat ≠ numOf (bits.drop (45 + 8 * length)) →
       exec event s = .next (failed .crc)) ∧
     (r.waiting = false → r.run = 5 → b = !r.last → r.contentComplete = true → r.crcMatches = false →
       exec event s = .next (failed .crc)) ∧
     (r.waiting = false → r.run = 5 → r.last = false → b = false →
       exec event s = .next (failed .stuff)) ∧
     (r.waiting = true → b = false → exec event s = .next (failed .stuff)) ∧
     (r.waiting = false → r.run ≠ 5 → r.contentComplete = true → b = false →
       exec event s = .next (failed .format))) ∧
  (∀ (s : State) (r : Rx) (d : Ticks),
     s.bus.ctrl = .receiving → s.bus.rx = some r → r.waiting = true → s.bus.idleDue = some d →
     s.bus.slot = none → s.gateOpen = false →
     exec .busIdle s = .next { s with
       now := max s.now d
       bus := { s.bus with
         ctrl := .listening, idle := true, idleDue := none, selected := none, rx := none
         counters := { s.bus.counters with truncation := satInc s.bus.counters.truncation } }
       grade := { s.grade with errors := min 255 (s.grade.errors + 1) } })

/-- LOST ARBITRATION at own recessive bit k and DOMINANT READ RECESSIVE at own dominant bit k of the arbitration field,
whose length counts a stuff bit with the field of the bit it follows (R32; log 8). The station stops driving and keeps
its frame: a composition frame, of an older epoch too, is in the slot unless a newer one is (log 14); a cargo entry is
back in its place, no longer in flight, its attempts unchanged, reviewed where it owes a rename (R136), and gone with
EXPIRED where its lifetime has lapsed (R133). After lost arbitration it goes on as a receiver of what it has read. After
the other it waits for idle (R26; the instant is log 12's), and a start bit that reads recessive leaves the bus idle
(log 33). Strikes, clock, chain units and engine do not change. -/
def Obligations.FrameHandedBackUncounted : Prop :=
  (∀ (s : State) (x : Tx) (k : Nat),
     s.bus.ctrl = .transmitting → s.bus.tx = some x →
     k < x.frame.arbitrationLength → x.frame.wireBits[k]? = some true →
     let read := Rx.afterStart.feed s.permitted (x.frame.readBack k)
     (∀ f, x.origin = .comp f →
       (∃ t, exec (.lostArbitration k) s = .next t ∧ t.bus.tx = none ∧
         t.bus.slot = s.bus.slotWith f ∧
         t.bus.strikes = s.bus.strikes ∧ t.cargo = s.cargo ∧ t.comp = s.comp ∧ t.now = s.now ∧
         t.chainA = s.chainA ∧ t.chainB = s.chainB ∧ t.port = s.port) ∧
       (∀ r, read = .more r → exec (.lostArbitration k) s = .next { s with bus := { s.bus with
         ctrl := .receiving, tx := none, slot := s.bus.slotWith f, rx := some r
         idleDue := some (s.now + r.untilIdle) } })) ∧
     (∀ ticket p before after y, x.origin = .cargo ticket p →
       s.cargo.queue = before ++ y :: after → (s.cargo.queue.map TxEntry.ticket).Nodup →
       y.ticket = ticket →
       EntryReturns s before after y y.attempts fun u =>
         (∃ t, exec (.lostArbitration k) s = .next t ∧ t.bus.tx = none ∧ t.bus.slot = s.bus.slot ∧
           t.bus.strikes = s.bus.strikes ∧ t.cargo = u.cargo ∧
           t.comp = s.comp ∧ t.now = s.now ∧ t.chainA = s.chainA ∧ t.chainB = s.chainB ∧
           t.port = u.port) ∧
         (∀ r, read = .more r → exec (.lostArbitration k) s = .next { u with bus := { s.bus with
           ctrl := .receiving, tx := none, rx := some r
           idleDue := some (s.now + r.untilIdle) } }))) ∧
  (∀ (s : State) (x : Tx) (k : Nat),
     s.bus.ctrl = .transmitting → s.bus.tx = some x →
     k < x.frame.arbitrationLength → x.frame.wireBits[k]? = some false →
     let bus : Bus := { s.bus with
       ctrl := .listening, tx := none, idle := decide (k = 0) || s.bus.idle
       idleDue := if k = 0 then none else some (s.now + x.frame.idleAfter k) }
     let event := Instr.dominantReadRecessive k
     (∀ f, x.origin = .comp f →
       exec event s = .next { s with bus := { bus with slot := s.bus.slotWith f } }) ∧
     (∀ ticket p before after y, x.origin = .cargo ticket p →
       s.cargo.queue = before ++ y :: after → (s.cargo.queue.map TxEntry.ticket).Nodup →
       y.ticket = ticket →
       EntryReturns s before after y y.attempts fun u =>
         exec event s = .next { u with bus := bus }))

/-- STRIKE at own bit k after the arbitration field (R34, R35, R37, R41, R131; where the field ends is log 8's) and the
end of the rest. The strike count and the error count rise, and the owner keeps the frame: a composition frame of any
epoch (log 14) is in the slot unless a newer one is; a cargo entry returns to the queue with its attempts raised, reviewed
where it owes a rename (R136) and gone with EXPIRED where its lifetime has lapsed (R133), or leaves with BUS FAILURE at
the third attempt, whatever its marks. The sixteenth strike then begins a rest of 500 ms, or the stop where the latest
rest began within 10 s. An own dominant bit that reads recessive leaves the station waiting for idle. An own recessive
bit that reads dominant makes it a receiver of what it has read, in RESTING and SILENCED too, which it takes on, or which
ends at once in a receive error or a grade skip (the instant of idle is log 12's). A rest ends with 8 strikes, in
LISTENING, or in RECEIVING where a frame is being received (the clock of a late timer is log 2's). -/
def Obligations.StrikeCountsAndRests : Prop :=
  (∀ (s : State) (x : Tx) (k : Nat), s.bus.ctrl = .transmitting → s.bus.tx = some x →
     x.frame.arbitrationLength ≤ k →
     let goesOn (ctrl : Ctrl) (v : State) : Prop :=
       (s.bus.strikes < 15 →
         exec (.strike k) s = .next { v with bus := { v.bus with ctrl := ctrl } }) ∧
       (15 ≤ s.bus.strikes → (∀ r, s.bus.latestRest = some r → r + 40000000 < s.now) →
         exec (.strike k) s = .next { v with
           bus := { v.bus with
             ctrl := .resting, latestRest := some s.now, restDue := some (s.now + 2000000) }
           port := { v.port with flags := v.port.flags ||| 0x0200#15 } }) ∧
       (15 ≤ s.bus.strikes → (∃ r, s.bus.latestRest = some r ∧ s.now ≤ r + 40000000) →
         ∃ t, exec (.strike k) s = .next t ∧ PartStops v t)
     let counted (u : State) (bus : Bus) : State := { u with
       bus := { bus with slot := u.bus.slot, tx := none, strikes := min 16 (s.bus.strikes + 1) }
       grade := { s.grade with errors := min 255 (s.grade.errors + 1) } }
     let read := Rx.afterStart.feed s.permitted (x.frame.readBack k)
     let idleDue := some (s.now + Rx.afterStart.idleAfter s.permitted (x.frame.readBack k))
     StruckFrameReturns s x.origin fun u =>
       (x.frame.wireBits[k]? = some false →
         goesOn .listening (counted u { s.bus with idleDue := some (s.now + x.frame.idleAfter k) })) ∧
       (x.frame.wireBits[k]? = some true →
         (∀ r, read = .more r →
           goesOn .receiving (counted u { s.bus with
             rx := some r, idleDue := some (s.now + r.untilIdle) })) ∧
         (∀ e, read = .error e →
           let v := counted u { s.bus with
             rx := none, idleDue := idleDue, counters := s.bus.counters.raise e.counter }
           goesOn .listening { v with grade := { v.grade with errors := min 255 (v.grade.errors + 1) } }) ∧
         (read = .skip →
           goesOn .listening (counted u { s.bus with
             rx := none, idleDue := idleDue, counters := s.bus.counters.raise .gradeSkip })))) ∧
  (∀ (s : State) (t : Ticks), s.bus.ctrl = .resting → s.bus.restDue = some t →
     exec .restTimerExpiry s = .next { s with
       now := max s.now t
       bus := { s.bus with
         ctrl := if s.bus.rx.isSome then .receiving else .listening
         strikes := 8, restDue := none } })

/-- CLEAN COMPLETION (R33, R34, R50, R131): the strike count falls by one and the intermission runs; a cargo
entry leaves with SENT and the position its wire destination named; an own offer of the own epoch raises the
count of offers sent, and in OFFER an own offer of any epoch is noted as completed (log 15). The instants of idle
and intermission are the model's arithmetic (log 12). -/
def Obligations.CleanCompletionReportsToOwner : Prop :=
  ∀ (s : State) (x : Tx), s.bus.ctrl = .transmitting → s.bus.tx = some x →
    let bus := { s.bus with
      ctrl := .listening, tx := none, strikes := s.bus.strikes - 1, idle := false
      idleDue := some (s.now + x.frame.idleAfter (x.frame.wireBits.length - 1))
      intermissionEnd := some (s.now + 104) }
    (∀ ticket p, x.origin = .cargo ticket p → s.cargo.outcomes.length < 32 →
      exec .cleanCompletion s = .next { s with
        bus := bus
        cargo := { s.cargo with
          queue := s.cargo.queue.filter (fun y => y.ticket ≠ ticket)
          outcomes := s.cargo.outcomes ++ [⟨ticket, .sent, p⟩] }
        port := { s.port with flags := s.port.flags ||| 0x0040#15 } }) ∧
    (∀ e d p, x.origin = .comp (.confirm e d p) →
      exec .cleanCompletion s = .next { s with bus := bus }) ∧
    (∀ e d, x.origin = .comp (.presence e d) →
      exec .cleanCompletion s = .next { s with bus := bus }) ∧
    (∀ o, x.origin = .comp (.offer o) →
      let sent := if o.epoch = s.comp.epoch then min 255 (s.comp.ownSent + 1) else s.comp.ownSent
      (s.comp.state = .offer → sent < 3 →
        exec .cleanCompletion s = .next { s with
          bus := bus
          comp := { s.comp with ownSent := sent, offerDone := true } }) ∧
      (s.comp.state ≠ .offer →
        exec .cleanCompletion s = .next { s with
          bus := bus
          comp := { s.comp with ownSent := sent } }))

/-! ## Composition -/

/-- The judgement of epochs (R48): by the difference modulo 65 536, with the boundaries of its four ranges. An offer is
judged on its delivery, against the own epoch as it then stands: an older or opposite one is stale, raises the
stale-frames counter, and has no effect on the heard table, the composition state or anything else; that the delivery
ends the reception, and what it notes of the sender in the member watch, is said elsewhere. Opposite epochs are opposite
both ways, and once either is raised by one, the raised one is older than the other, and the other newer than it. -/
def Obligations.EpochJudgedByDifference : Prop :=
  (∀ h e : Epoch,
    let d := (h.toNat + 65536 - e.toNat) % 65536
    (judgeEpoch h e = .equal ↔ d = 0) ∧
    (judgeEpoch h e = .newer ↔ 1 ≤ d ∧ d ≤ 32767) ∧
    (judgeEpoch h e = .opposite ↔ d = 32768) ∧
    (judgeEpoch h e = .older ↔ 32769 ≤ d) ∧
    (judgeEpoch h e = .opposite → judgeEpoch e h = .opposite ∧
      judgeEpoch (h + 1) e = .older ∧ judgeEpoch e (h + 1) = .newer)) ∧
  (∀ (s : State) (f : Frame),
    s.bus.rx = some .afterStart →
    s.bus.ctrl = .receiving ∨ s.bus.ctrl = .resting →
    f.Readable s.permitted → f.cls ≤ 3 → f.source ≠ s.identity → f.source ≠ 0 →
    s.comp.state ≠ .idle → s.comp.state ≠ .halted →
    ∀ o, compFrameOfBody? f.cls f.body = some (.offer o) →
      judgeEpoch o.epoch s.comp.epoch = .older ∨ judgeEpoch o.epoch s.comp.epoch = .opposite →
      ∃ t, exec (.frameReceived (f.wireBits.drop 1)) s = .next t ∧
        t.comp = { s.comp with watch := t.comp.watch } ∧
        t.bus = { s.bus with
          ctrl := t.bus.ctrl, rx := none, idleDue := t.bus.idleDue
          counters := { s.bus.counters with stale := satInc s.bus.counters.stale } } ∧
        t = { s with comp := t.comp, bus := t.bus })

/-- QUIET HOLD END and CADENCE TIMER, here on a bus that is not idle (R57, R69, R70, R74): the engine enters OFFER, or
goes on in it, refreshes its own entry with the offer it builds, and hands that offer in; in CONFIRM a further
confirm of the pending roster is handed in and its digest recorded in the own entry, here where a member has
not yet confirmed. The cadence timer runs again. A late timer does not move the clock back (log 2). The offer carries
the own epoch, both ends' reports and saturated marks, the ceiling, the payload maximum, and as cab state NONE without a
fitted cab, else the active end of the cab setting or IDLE (R49, R119, R159). -/
def Obligations.OfferTimersHandInFrames : Prop :=
  (∀ (s : State) (d : Ticks), s.comp.state = .quiet → s.comp.holdDue = some d → s.bus.idle = false →
     exec .quietHoldEnd s = .next { s with now := max s.now d }.enteringOffer) ∧
  (∀ (s : State) (d : Ticks), s.comp.cadenceDue = some d → s.bus.idle = false →
     (s.comp.state = .offer →
       exec .cadenceTimer s = .next { s with
         now := max s.now d
         comp := { s.comp with
           cadenceDue := some (max s.now d + 320000)
           table := s.comp.table.map fun x =>
             if x.id = s.identity then ⟨s.identity, s.ownOffer, none⟩ else x }
         bus := { s.bus with slot := some (.offer s.ownOffer) } }) ∧
     (∀ r id x, s.comp.state = .confirm → s.comp.pendingRoster = some r → id ≠ s.identity →
       id ∈ r.heardIds → x ∈ s.comp.table → x.id = id → x.confirmed ≠ some r.digest →
       (s.comp.table.map HeardEntry.id).Nodup →
       exec .cadenceTimer s = .next { s with
         now := max s.now d
         comp := { s.comp with
           cadenceDue := some (max s.now d + 320000)
           table := s.comp.table.map fun y =>
             if y.id = s.identity then { y with confirmed := some r.digest } else y }
         bus := { s.bus with slot := some (.confirm s.comp.epoch r.digest r.ownPos) } })) ∧
  (∀ (s : State) (i : Image), s.port.image = some i → s.ownOffer =
     { epoch := s.comp.epoch
       endA := ⟨s.report .a, s.chainA.drv.saturated⟩
       endB := ⟨s.report .b, s.chainB.drv.saturated⟩
       cab := if i.cabEnds = .neither then .noCab
         else match s.port.cab with
           | .inactive => .idle
           | .activeA => .activeA
           | .activeB => .activeB
       ceiling := s.grade.ceiling
       payloadMax := i.payloadMax })

/-- Placement ends OFFER (R71, R72, R74, R77, R79, R80). Once three own offers are sent and one has completed in OFFER,
160 ms without a new identity bring the placement; so does the completion of an own offer, the third or later, where
the table holds as many entries as the own counts imply. Its result takes the engine out of OFFER: success to a pending
roster, adopted at once where every other HEARD member has confirmed its digest already and else awaited in CONFIRM;
CONFLICT, UNPLACED and OVERFLOW to a failed round; TOO LONG to LIMP. Where a condition is missing the engine stays in
OFFER. A late timer does not move the clock back (log 2). -/
def Obligations.PlacementEndsOffering : Prop :=
  (∀ (s : State) (d : Ticks), TableOk s → s.comp.state = .offer → s.comp.lastEntry = some d →
    (s.comp.offerDone = true → 3 ≤ s.comp.ownSent →
      ∃ t, exec .lastEntryTimeout s = .next t ∧ t.now = max s.now (d + 640000) ∧
        t.comp.state ≠ .offer ∧ PlacementTaken s t s.placement ∧
        t.chainA = s.chainA ∧ t.chainB = s.chainB ∧ t.grade = s.grade ∧ t.pending = s.pending) ∧
    (s.comp.offerDone = false ∨ s.comp.ownSent < 3 →
      ∃ t, exec .lastEntryTimeout s = .next t ∧ t.now = max s.now (d + 640000) ∧ t.comp = s.comp)) ∧
  (∀ (s : State) (x : Tx) (o : OfferFields) (own : HeardEntry), TableOk s →
    s.bus.ctrl = .transmitting → s.bus.tx = some x → x.origin = .comp (.offer o) →
    s.comp.state = .offer → o.epoch = s.comp.epoch → 2 ≤ s.comp.ownSent →
    own ∈ s.comp.table → own.id = s.identity →
    let implied := own.offer.endA.report.count + own.offer.endB.report.count + 1
    (s.comp.table.length = implied →
      ∃ t, exec .cleanCompletion s = .next t ∧ t.comp.state ≠ .offer ∧
        PlacementTaken s t s.placement) ∧
    (∀ d, s.comp.table.length ≠ implied → s.comp.lastEntry = some d → s.now < d + 640000 →
      ∃ t, exec .cleanCompletion s = .next t ∧ t.comp = { s.comp with
        ownSent := min 255 (s.comp.ownSent + 1), offerDone := true }))

/-- ROUND DEADLINE (R78 to R80): the round fails; below three failures it goes on under a new epoch, and from the
third on the engine adopts a limp roster at the present epoch. A late timer does not move the clock back (log 2). -/
def Obligations.RoundDeadlineFailsRound : Prop :=
  ∀ (s : State) (d : Ticks), s.comp.deadlineDue = some d →
    s.comp.state = .quiet ∨ s.comp.state = .offer ∨ s.comp.state = .confirm →
    (s.comp.failed < 2 →
      ∃ t, exec .roundDeadline s = .next t ∧
        NewRound { s with
          now := max s.now d, comp := { s.comp with failed := s.comp.failed + 1 } } t
          (s.comp.epoch + 1) .roundFailed) ∧
    (2 ≤ s.comp.failed →
      ∃ t r, exec .roundDeadline s = .next t ∧ OutsideEngine { s with now := max s.now d } t ∧
        t.comp.state = .limp ∧ t.comp.reason = .roundFailed ∧
        t.comp.failed = min 255 (s.comp.failed + 1) ∧ t.comp.epoch = s.comp.epoch ∧
        t.comp.current = some r ∧ r.status = .limp ∧ r.jointGrade = .g1 ∧
        r.jointPayload = .p16 ∧ r.epoch = s.comp.epoch ∧ t.bus.cargoGrade = .g1 ∧
        (∀ c, s.comp.current = some c → t.comp.previous = some c) ∧
        (s.comp.current = none → t.comp.previous = s.comp.previous) ∧
        t.comp.pendingRoster = none ∧ t.comp.deadlineDue = none ∧
        t.comp.retryDue = some (max s.now d + 120000000) ∧
        t.flagSet .adopted = true ∧ t.flagSet .limp = true ∧ t.gateOpen = true)

/-- Adoption, into SETTLED or into LIMP (R82, R136): the roster becomes current and the former current one previous, the
cargo grade is its joint grade, round deadline, hold and cadence stop, the LIMP retry timer runs in LIMP alone, the
first presence point falls 4 ms times the own position later, every member is watched from now, and ADOPTED and, with
the flag or the status, CAB CONFLICT and LIMP are set. The rename pass reviews the transmit queue in its order, against
the rosters as they now stand: an entry in flight owes its rename, and one whose review fails leaves with its outcome;
there is room for the outcomes here. -/
def Obligations.AdoptionTakesRoster : Prop :=
  ∀ (s : State) (limp : Bool) (r : Roster), (s.cargo.queue.map TxEntry.ticket).Nodup →
    s.cargo.outcomes.length + s.cargo.queue.length ≤ 32 →
    let previous := match s.comp.current with
      | some c => some c
      | none => s.comp.previous
    let gone := s.cargo.queue.filterMap (departed previous r)
    s.adopt limp r = { s with
      comp := { s.comp with
        state := if limp then .limp else .settled
        current := some r, pendingRoster := none, previous := previous
        holdDue := none, cadenceDue := none, deadlineDue := none
        retryDue := if limp then some (s.now + 120000000) else none, retryFell := none
        failed := if limp then s.comp.failed else 0
        presenceDue := some (s.now + 16000 * r.ownPos)
        watch := (r.heardIds.filter fun id => id ≠ s.identity).map fun id => ⟨id, s.now⟩ }
      cargo := { s.cargo with
        queue := s.cargo.queue.filterMap (renamed previous r)
        outcomes := s.cargo.outcomes ++ gone }
      bus := { s.bus with cargoGrade := r.jointGrade }
      port := { s.port with
        flags := s.port.flags ||| 0x0001#15 ||| (if gone = [] then 0 else 0x0040#15) |||
          (if r.cabConflict then 0x0400#15 else 0) ||| (if limp then 0x0002#15 else 0) } }

/-- Duties under a roster. LIMP RETRY in LIMP (R81) begins a background round under a new epoch, and the current roster,
the presence schedule and the member watch go on; where another trigger has been taken first at the instant on which the
timer expires too, or later (log 2), the expiry is taken in the QUIET of its round and begins that round again (R66), and a
timer stopped before it was due does not expire. MEMBER LOST (R87): a watched member not heard for three presence
intervals is set aside and a round begins for the reason MEMBER LOST. PRESENCE SCHEDULE POINT (R52, R85): while the
presence duty is held a presence of the current roster's epoch and digest is handed in, here on a bus that is not idle,
and the next point falls one interval after this one, by the band of the roster's length. A late event does not move
the clock back (log 2). -/
def Obligations.DutyUnderRoster : Prop :=
  (∀ (s : State) (d : Ticks) (r : Roster), s.comp.state = .limp → s.comp.retryDue = some d →
     s.comp.current = some r → r.status = .limp →
     ∃ t, exec .limpRetry s = .next t ∧
       NewRound { s with
         now := max s.now d, comp := { s.comp with retryDue := none, retryFell := none } } t
         (s.comp.epoch + 1) .limpRetry ∧
       t.roundKind = .background ∧ t.gateOpen = true ∧ t.comp.current = some r ∧
       t.comp.presenceDue = s.comp.presenceDue ∧ t.comp.watch = s.comp.watch) ∧
  (∀ (s u : State) (d : Ticks) (e : Epoch) (reason : Reason),
     s.comp.state = .limp → s.comp.retryDue = some d → NewRound s u e reason →
     (d ≤ s.now → ∃ t, exec .limpRetry u = .next t ∧
       NewRound { u with comp := { u.comp with retryFell := none } } t (e + 1) .limpRetry) ∧
     (s.now < d → exec .limpRetry u = .next u)) ∧
  (∀ (s : State) (r : Roster) (id : Identity) (w : Watched),
     s.comp.state = .settled ∨ s.comp.state = .limp → s.comp.current = some r →
     s.comp.watch.find? (fun x => x.id = id) = some w →
     ∃ t, exec (.memberLost id) s = .next t ∧
       NewRound { s with
         now := max s.now (w.heard + 3 *
           (if r.n ≤ 4 then 400000 else if r.n ≤ 8 then 600000 else if r.n ≤ 12 then 800000
             else 1000000))
         comp := { s.comp with watch := s.comp.watch.filter fun x => x.id ≠ id } } t
         (s.comp.epoch + 1) .memberLost) ∧
  (∀ (s : State) (d : Ticks) (r : Roster),
     s.comp.state = .settled ∨ s.comp.state = .limp ∨
       (r.status = .limp ∧
         (s.comp.state = .quiet ∨ s.comp.state = .offer ∨ s.comp.state = .confirm)) →
     s.comp.current = some r → s.comp.presenceDue = some d → s.bus.idle = false →
     exec .presenceSchedulePoint s = .next { s with
       now := max s.now d
       comp := { s.comp with
         presenceDue := some (d +
           (if r.n ≤ 4 then 400000 else if r.n ≤ 8 then 600000 else if r.n ≤ 12 then 800000
             else 1000000)) }
       bus := { s.bus with slot := some (.presence r.epoch r.digest) } })

/-- An offer received. Of the own epoch it is taken into the heard table (R54, R58, R59): NEW at the end with the instant
of last entry moved, CHANGED or SAME in its place with the confirmed digest cleared, or NOT STORED with the overflow
mark set. In QUIET that is all (R69); in OFFER a NEW one may bring the placement (R71, R73); in CONFIRM any but SAME
gives up the pending roster for OFFER (R75); in SETTLED and LIMP a member is answered with a confirm (R83), and a
stranger that is NEW or NOT STORED begins a round (R84). A newer one: the engine takes a NEWER EPOCH trigger, adopts
the heard epoch with a table of the own entry, and then takes the offer into it (R61, R65 to R69). An older or opposite
one is counted as stale and has no other effect (R48, R54). -/
def Obligations.OfferReceivedByEpoch : Prop :=
  (∀ (s : State) (src : Identity) (o : OfferFields),
     ((∀ x ∈ s.comp.table, x.id ≠ src) → s.comp.table.length < 16 →
       s.takeOffer src o =
         ({ s with comp := { s.comp with
             table := s.comp.table ++ [⟨src, o, none⟩], lastEntry := some s.now } }, .new)) ∧
     ((∀ x ∈ s.comp.table, x.id ≠ src) → 16 ≤ s.comp.table.length →
       s.takeOffer src o = ({ s with comp := { s.comp with overflow := true } }, .notStored)) ∧
     (∀ before x after, s.comp.table = before ++ x :: after → x.id = src →
       (s.comp.table.map HeardEntry.id).Nodup →
       s.takeOffer src o =
         ({ s with comp := { s.comp with table := before ++ ⟨src, o, none⟩ :: after } },
           if x.offer = o then .same else .changed))) ∧
  (∀ (s : State) (src : Identity) (o : OfferFields), judgeEpoch o.epoch s.comp.epoch = .newer →
     src ≠ s.identity →
     ∃ u, NewRound s u o.epoch .newerEpoch ∧
       s.receiveOffer src o = { u with comp := { u.comp with
         table := u.comp.table ++ [⟨src, o, none⟩], lastEntry := some s.now } }) ∧
  (∀ (s : State) (src : Identity) (o : OfferFields),
     judgeEpoch o.epoch s.comp.epoch = .older ∨ judgeEpoch o.epoch s.comp.epoch = .opposite →
     s.receiveOffer src o = { s with bus := { s.bus with
       counters := { s.bus.counters with stale := satInc s.bus.counters.stale } } }) ∧
  (∀ (s : State) (src : Identity) (o : OfferFields), o.epoch = s.comp.epoch → src ≠ s.identity →
     let taken := (s.takeOffer src o).1
     let result := (s.takeOffer src o).2
     let news := result = .new ∨ result = .notStored
     (s.comp.state = .quiet → s.receiveOffer src o = taken) ∧
     (s.comp.state = .offer →
       (result ≠ .new ∨ s.comp.ownSent < 3 ∨ s.comp.offerDone = false → s.receiveOffer src o = taken) ∧
       (∀ own, TableOk taken → own ∈ taken.comp.table → own.id = s.identity →
         result = .new → 3 ≤ s.comp.ownSent → s.comp.offerDone = true →
         taken.comp.table.length =
           own.offer.endA.report.count + own.offer.endB.report.count + 1 →
         PlacementTaken taken (s.receiveOffer src o) taken.placement)) ∧
     (s.comp.state = .confirm →
       (result = .same → s.receiveOffer src o = taken) ∧
       (result ≠ .same → s.receiveOffer src o = taken.enteringOffer)) ∧
     (∀ r, s.comp.state = .settled ∨ s.comp.state = .limp → s.comp.current = some r →
       (src ∈ r.heardIds → s.receiveOffer src o = { taken with
         bus := { s.bus with slot := some (.confirm s.comp.epoch r.digest r.ownPos) } }) ∧
       (src ∉ r.heardIds → news →
         NewRound taken (s.receiveOffer src o) (s.comp.epoch + 1) .strangerOffer) ∧
       (src ∉ r.heardIds → ¬news → s.receiveOffer src o = taken)))

/-- A confirm received (R55, R60). Of a newer epoch it makes the engine adopt that epoch, unrecorded; of an older or
opposite one it is discarded. Of the own epoch its digest is recorded against its sender's entry, and in QUIET and
OFFER that is all (R69, R73). In CONFIRM (R76, R77) one from a station outside the pending roster has no further effect;
a member's agreement brings the adoption once every HEARD member has confirmed; a member's first disagreement gives up
the pending roster for OFFER, and a further one fails the round (R79), a wrong position alone clearing the digest. In
SETTLED and LIMP a member's new record is answered with a confirm (R83), and a stranger without an entry begins a round
(R84). -/
def Obligations.ConfirmReceivedByEpoch : Prop :=
  ∀ (s : State) (src : Identity) (e : Epoch) (d : Digest) (p : Nat),
    (s.comp.table.map HeardEntry.id).Nodup → src ≠ s.identity →
    let recording (confirmed : Option Digest) : Comp := { s.comp with
      table := s.comp.table.map fun x => if x.id = src then { x with confirmed := confirmed } else x }
    let recorded := { s with comp := recording (some d) }
    (judgeEpoch e s.comp.epoch = .newer → NewRound s (s.receiveConfirm src e d p) e .newerEpoch) ∧
    (judgeEpoch e s.comp.epoch = .older ∨ judgeEpoch e s.comp.epoch = .opposite →
      s.receiveConfirm src e d p = s) ∧
    (e = s.comp.epoch →
      (s.comp.state = .quiet ∨ s.comp.state = .offer → s.receiveConfirm src e d p = recorded) ∧
      (∀ r, s.comp.state = .confirm → s.comp.pendingRoster = some r →
        (src ∉ r.heardIds → s.receiveConfirm src e d p = recorded) ∧
        (src ∈ r.heardIds → d = r.digest → r.posOf src = some p →
          let all := ∀ id ∈ r.heardIds,
            ∃ x ∈ recorded.comp.table, x.id = id ∧ x.confirmed = some r.digest
          (all → s.receiveConfirm src e d p = recorded.adopt false r) ∧
          (¬all → s.receiveConfirm src e d p = recorded)) ∧
        (src ∈ r.heardIds → d ≠ r.digest ∨ r.posOf src ≠ some p →
          let kept := recording (if d = r.digest then none else some d)
          (s.comp.disagreements = 0 →
            s.receiveConfirm src e d p =
              { s with comp := { kept with disagreements := 1 } }.enteringOffer) ∧
          (1 ≤ s.comp.disagreements → s.comp.failed < 2 →
            NewRound { s with comp := { kept with failed := s.comp.failed + 1 } }
              (s.receiveConfirm src e d p) (s.comp.epoch + 1) .roundFailed) ∧
          (1 ≤ s.comp.disagreements → 2 ≤ s.comp.failed →
            (s.receiveConfirm src e d p).comp.state = .limp ∧
            (s.receiveConfirm src e d p).comp.epoch = s.comp.epoch ∧
            (s.receiveConfirm src e d p).comp.failed = min 255 (s.comp.failed + 1)))) ∧
      (∀ r, s.comp.state = .settled ∨ s.comp.state = .limp → s.comp.current = some r →
        let held := ∃ x ∈ s.comp.table, x.id = src ∧ x.confirmed = some r.digest
        (src ∈ r.heardIds → held → s.receiveConfirm src e d p = recorded) ∧
        (src ∈ r.heardIds → ¬held → s.receiveConfirm src e d p = { recorded with
          bus := { s.bus with slot := some (.confirm s.comp.epoch r.digest r.ownPos) } }) ∧
        (src ∉ r.heardIds → (∃ x ∈ s.comp.table, x.id = src) →
          s.receiveConfirm src e d p = recorded) ∧
        (src ∉ r.heardIds → (∀ x ∈ s.comp.table, x.id ≠ src) →
          NewRound s (s.receiveConfirm src e d p) (s.comp.epoch + 1) .strangerOffer)))

/-- A presence received (R55, R86). Newer than the own epoch, it makes the engine adopt that epoch; where it is of the
current roster's epoch too, that newer comes first is the model's choice (log 32). Of the current roster's epoch, in
SETTLED a member's differing digest begins a round, an equal one has no effect; in LIMP and in a background round no
member's has; a non-member is counted as a stranger; in a foreground round it is ignored. Any other is discarded. -/
def Obligations.PresenceReceivedByEpoch : Prop :=
  ∀ (s : State) (src : Identity) (e : Epoch) (d : Digest), src ≠ s.identity →
    (judgeEpoch e s.comp.epoch = .newer → NewRound s (s.receivePresence src e d) e .newerEpoch) ∧
    (judgeEpoch e s.comp.epoch ≠ .newer →
      (s.comp.current = none → s.receivePresence src e d = s) ∧
      (∀ r, s.comp.current = some r →
        let round := s.comp.state = .quiet ∨ s.comp.state = .offer ∨ s.comp.state = .confirm
        let duty := s.comp.state = .settled ∨ s.comp.state = .limp ∨ (round ∧ r.status = .limp)
        (e ≠ r.epoch → s.receivePresence src e d = s) ∧
        (e = r.epoch → duty → src ∈ r.heardIds → d = r.digest ∨ s.comp.state ≠ .settled →
          s.receivePresence src e d = s) ∧
        (e = r.epoch → src ∈ r.heardIds → d ≠ r.digest → s.comp.state = .settled →
          NewRound s (s.receivePresence src e d) (s.comp.epoch + 1) .digestMismatch) ∧
        (e = r.epoch → duty → src ∉ r.heardIds →
          s.receivePresence src e d = { s with bus := { s.bus with
            counters := { s.bus.counters with stranger := satInc s.bus.counters.stranger } } }) ∧
        (e = r.epoch → round → r.status ≠ .limp → s.receivePresence src e d = s)))

/-! ## Placement -/

/-- The result of placement does not depend on the order in which offers were heard (R91): two heard tables with
the same entries in another order give the same result. -/
def Obligations.PlacementIgnoresArrivalOrder : Prop :=
  ∀ (t u : List HeardEntry) (overflow : Bool) (current : Option Roster) (epoch : Epoch)
    (own : Identity), t.Perm u → (t.map HeardEntry.id).Nodup →
    place t overflow current epoch own = place u overflow current epoch own

/-- The roster that placement builds of an own run (R101 to R109): the run end beyond the winner's active end leads, the
winner being the active entry of the smallest identity, and with no active cab the end whose station has the smaller
identity, or the A end of a lone carriage. Positions are numbered from the leading end, an entry is FORWARD if its A
end faces it, and a cab is ACTIVE on the winner and OVERRULED on other active entries. CAB CONFLICT is set with two
active entries and NO CAB with none. Status, joint grade and payload follow the entries, a limp roster's do not, and
the digest is the CRC of the entries in position order with length and joint codes behind them. -/
def Obligations.RosterRecordOfRun : Prop :=
  ∀ (limp : Bool) (epoch : Epoch) (own : Identity) (slots : List RunSlot) (split : Bool),
    let heard := slots.filterMap id
    (heard.map fun p => p.entry.id).Nodup → own ∈ heard.map (fun p => p.entry.id) →
    let r := buildRoster limp epoch own slots split
    let n := slots.length
    let wins (p : Placed) := ∀ q ∈ heard, q.entry.activeEnd.isSome → p.entry.id.toNat ≤ q.entry.id.toNat
    r.epoch = epoch ∧ r.split = split ∧ r.n = n ∧ r.idAt r.ownPos = some own ∧
    r.tag = r.digest.extractLsb' 16 16 ^^^ r.digest.extractLsb' 0 16 ∧
    (∃ leads : Bool,
      (∀ w ∈ heard, ∀ e, w.entry.activeEnd = some e → wins w → leads = decide (w.near = e)) ∧
      ((∀ q ∈ heard, q.entry.activeEnd = none) →
        ∀ p q, slots.head? = some (some p) → slots.getLast? = some (some q) →
          leads = if n = 1 then decide (p.near = .a) else decide (p.entry.id.toNat < q.entry.id.toNat)) ∧
      (∀ j p, slots[j]? = some (some p) →
        r.entries[if leads then j else n - 1 - j]? = some (.heard p.entry.id
          (if decide (p.near = .a) = leads then .forward else .reversed)
          (match p.entry.offer.cab with
            | .noCab => .noCab
            | .idle => .idle
            | .activeA | .activeB => if wins p then .active else .overruled)
          p.entry.offer.ceiling p.entry.offer.payloadMax)) ∧
      (∀ j, slots[j]? = some none → r.entries[if leads then j else n - 1 - j]? = some .silent)) ∧
    (r.cabConflict = true ↔ ∃ p ∈ heard, ∃ q ∈ heard, p.entry.id ≠ q.entry.id ∧
      p.entry.activeEnd.isSome ∧ q.entry.activeEnd.isSome) ∧
    (r.noCab = true ↔ ∀ q ∈ heard, q.entry.activeEnd = none) ∧
    (limp = true → r.status = .limp ∧ r.jointGrade = .g1 ∧ r.jointPayload = .p16) ∧
    (limp = false →
      (none ∈ slots → r.status = .partialRoster) ∧ (none ∉ slots → r.status = .complete) ∧
      let cap := if n ≤ 8 then 3 else 2
      r.jointGrade.code ≤ cap ∧ (∀ p ∈ heard, r.jointGrade.code ≤ p.entry.offer.ceiling.code) ∧
      (r.jointGrade.code = cap ∨ ∃ p ∈ heard, r.jointGrade = p.entry.offer.ceiling) ∧
      (∀ p ∈ heard, r.jointPayload.code ≤ p.entry.offer.payloadMax.code) ∧
      (∃ p ∈ heard, r.jointPayload = p.entry.offer.payloadMax)) ∧
    r.digest = crc32 (bitsOfBytes
      (r.entries.flatMap (fun x => match x with
        | .silent => [0, 0, 0, 0, 0]
        | .heard id o c _ _ => bytes32 id ++ [(if o = .reversed then 0x80 else 0x00) ||| byteOf c.code]) ++
      [byteOf n, byteOf r.jointGrade.code, byteOf r.jointPayload.code])) 0xFFFFFFFF#32

/-- A whole train is placed (R92, R93, R95 to R97, R101): stations that all stand A end first, each counting the
carriages beyond its two ends and facing its neighbours' ends, with true ends at the two extremities and no mark of
saturation, make one closed run of the stations in their order, from the extremity whose station has the smaller
identity, or from the A end of a lone station; no roster is current here. -/
def Obligations.AlignedTrainIsPlaced : Prop :=
  ∀ (train table : List HeardEntry) (epoch : Epoch) (own : Identity) (p q : HeardEntry),
    train.length ≤ 16 → (train.map HeardEntry.id).Nodup → own ∈ train.map HeardEntry.id →
    table.Perm train → train.head? = some p → train.getLast? = some q →
    Aligned train Triple.bounds Triple.bounds →
    place table false none epoch own = .success (buildRoster false epoch own
      (if train.length = 1 ∨ p.id.toNat < q.id.toNat then forwardSlots train else backwardSlots train) false)

/-- A broken train is placed (R93 to R96, R98 to R101), its stations standing A end first. Where carriages of a gap are
silent, its first and last among them, a station on one side of the gap joins the other side's walk to its own, with
SILENT positions between, also where heard carriages stand in the gap; where the gap reaches to the extremity its run is
its own walk alone, with SPLIT; and a heard station in the gap is UNPLACED. Where a coupler reads FAULT from both sides,
the two walks are joined through it if the current roster has the stations in this order: its evidence sets aside the
carriages that stand as far from the other extremity. With no current roster, and two stations or more on each side,
placement fails with CONFLICT. -/
def Obligations.BrokenTrainIsPlaced : Prop :=
  (∀ (left gap right table : List HeardEntry) (silent : HeardEntry → Bool) (epoch : Epoch) (own : Identity),
    (left ++ gap ++ right).length ≤ 16 → ((left ++ gap ++ right).map HeardEntry.id).Nodup →
    Aligned (left ++ gap ++ right) Triple.bounds Triple.bounds → gap ≠ [] →
    (∀ x, gap.head? = some x ∨ gap.getLast? = some x → silent x = true) →
    table.Perm (left ++ gap.filter (fun x => !silent x) ++ right) →
    let between : List RunSlot := List.replicate gap.length none
    let found (slots : List RunSlot) (split : Bool) :=
      place table false none epoch own = .success (buildRoster false epoch own slots split)
    (own ∈ left.map HeardEntry.id →
      (right ≠ [] → found (forwardSlots left ++ between ++ forwardSlots right) false) ∧
      (right = [] → found (forwardSlots left) true)) ∧
    (own ∈ right.map HeardEntry.id →
      (left ≠ [] → found (backwardSlots right ++ between ++ backwardSlots left) false) ∧
      (left = [] → found (backwardSlots right) true)) ∧
    (own ∈ (gap.filter fun x => !silent x).map HeardEntry.id →
      place table false none epoch own = .unplaced)) ∧
  (∀ (left right table : List HeardEntry) (epoch : Epoch) (own : Identity),
    (left ++ right).length ≤ 16 → ((left ++ right).map HeardEntry.id).Nodup →
    Aligned left Triple.bounds (fun t => t = ⟨.fault, 0, none⟩) →
    Aligned right (fun t => t = ⟨.fault, 0, none⟩) Triple.bounds → left ≠ [] → right ≠ [] →
    table.Perm (left ++ right) →
    (∀ cur : Roster, cur.entries.map RosterEntry.id? = (left ++ right).map (fun x => some x.id) →
      (∀ x ∈ cur.entries, ∃ id c g m, x = .heard id .forward c g m) →
      (own ∈ left.map HeardEntry.id → place table false (some cur) epoch own =
        .success (buildRoster false epoch own (forwardSlots (left ++ right)) false)) ∧
      (own ∈ right.map HeardEntry.id → place table false (some cur) epoch own =
        .success (buildRoster false epoch own (backwardSlots (left ++ right)) false))) ∧
    (2 ≤ left.length → 2 ≤ right.length → place table false none epoch own = .conflict))

/-- Where full placement fails, and what limp placement makes of it (R91, R92, R96, R97, R110, R111). A set overflow mark
gives OVERFLOW, a saturated mark on any entry TOO LONG, two matches on any walk CONFLICT, an own entry on no walk UNPLACED,
on several walks and none closed CONFLICT, and on any closed walk that fails its mirror check CONFLICT. Limp placement
disregards the marks and makes of every run the roster of that run. It drops the matches of a conflict, here where all
conflicts are over the same, and the entries that two walks do not place mirror-wise, here where no other check fails, and
starts again; an own entry that has been dropped, or stands on no walk or on several and none closed, makes a roster of
itself alone, with SPLIT. -/
def Obligations.LimpPlacesWherePlacementFails : Prop :=
  ∀ (table : List HeardEntry) (current : Option Roster) (epoch : Epoch) (own : HeardEntry),
    (table.map HeardEntry.id).Nodup →
    let full := place table false current epoch own.id
    let limp (t : List HeardEntry) := limpRoster t current epoch own
    let walks := allWalks (sortById table) current
    let ws := walksOf walks
    let mine := ws.filter fun w => w.ids.contains own.id
    let alone := buildRoster true epoch own.id [some ⟨own, .a⟩] true
    let marked := ∃ x ∈ table, x.offer.endA.saturated = true ∨ x.offer.endB.saturated = true
    let mirrors (w w' : Walk) := w'.ending = .closed ∧ w'.ids.reverse = w.ids
    let paired (w w' : Walk) := w' ∈ ws ∧ w'.start.map (fun p => (p.entry.id, p.near)) = w.otherEnd
    place table true current epoch own.id = .overflow ∧ (marked → full = .tooLong) ∧
    (¬marked → (∃ ids, .conflict ids ∈ walks) → full = .conflict) ∧
    (own.id ∉ table.map HeardEntry.id → limp table = alone) ∧
    (∀ drop, (∃ ids, .conflict ids ∈ walks) → (∀ ids, .conflict ids ∈ walks → ids = drop) →
      limp table = limp (table.filter fun x => x.id ∉ drop)) ∧
    ((∀ ids, .conflict ids ∉ walks) →
      (∀ slots split, ownRunFull ws own.id = .run slots split →
        limp table = buildRoster true epoch own.id slots split) ∧
      (mine = [] → limp table = alone ∧ (¬marked → full = .unplaced)) ∧
      (2 ≤ mine.length → (∀ w ∈ mine, w.ending ≠ .closed) →
        limp table = alone ∧ (¬marked → full = .conflict)) ∧
      (∀ w w', w ∈ mine → w.ending = .closed → paired w w' → ¬mirrors w w' →
        (¬marked → full = .conflict) ∧
        ((∀ v ∈ mine, v.ending = .closed → v ≠ w → ∃ v', paired v v' ∧ mirrors v v') →
          limp table = limp (table.filter fun x =>
            ¬((x.id ∈ w.ids ∨ x.id ∈ w'.ids) ∧
              ∀ j, j < w.ids.length → w.ids[j]? = some x.id →
                w'.ids[w.ids.length - 1 - j]? ≠ some x.id)))))

/-! ## Grade monitor and cargo router -/

/-- WINDOW END (R116 to R118): 8 errors or more lower the ceiling, 2 to 7 break the up-run, and the thirtieth clean
window in a row raises the ceiling below its limit; only a changed ceiling sets GRADE and begins a round, which a halted
engine does not; the next window starts when this one ends. That the round empties the slot of an offer not yet started is R68's word
against R119's (log 37). A late end does not move the clock back (log 2). -/
def Obligations.WindowEndJudgesErrors : Prop :=
  ∀ (s : State) (d : Ticks), s.grade.windowDue = some d → s.grade.upRun ≤ 29 →
    s.grade.ceiling.code ≤ s.grade.limit.code →
    let g := s.grade
    let next (ceiling : Grade) (upRun : Nat) : GradeMonitor :=
      { g with ceiling := ceiling, errors := 0, upRun := upRun, windowDue := some (d + 4000000) }
    (g.errors ≤ 1 → g.upRun < 29 →
      exec .windowEnd s = .next { s with now := max s.now d, grade := next g.ceiling (g.upRun + 1) }) ∧
    (g.errors ≤ 1 → g.upRun = 29 → g.ceiling = g.limit →
      exec .windowEnd s = .next { s with now := max s.now d, grade := next g.ceiling 0 }) ∧
    (2 ≤ g.errors → g.errors ≤ 7 →
      exec .windowEnd s = .next { s with now := max s.now d, grade := next g.ceiling 0 }) ∧
    (8 ≤ g.errors → g.ceiling = .g1 →
      exec .windowEnd s = .next { s with now := max s.now d, grade := next .g1 0 }) ∧
    (∀ c, (8 ≤ g.errors ∧ c.code + 1 = g.ceiling.code) ∨
        (g.errors ≤ 1 ∧ g.upRun = 29 ∧ g.ceiling ≠ g.limit ∧ c.code = g.ceiling.code + 1) →
      let noticed := { s with
        now := max s.now d, grade := next c 0
        port := { s.port with flags := s.port.flags ||| 0x0080#15 } }
      (s.comp.state.takesTriggers →
        ∃ t, exec .windowEnd s = .next t ∧ NewRound noticed t (s.comp.epoch + 1) .ceiling) ∧
      (s.comp.state = .halted → exec .windowEnd s = .next noticed))

/-- LIFETIME EXPIRY (R132, R133): a queued entry is removed with EXPIRED; an entry in flight is marked lapsed and
stays. A late expiry does not move the clock back (log 2). -/
def Obligations.LifetimeExpiryRemovesOrLapses : Prop :=
  ∀ (s : State) (ticket : Nat) (d : Ticks) (before after : List TxEntry) (x : TxEntry),
    s.cargo.queue = before ++ x :: after → (s.cargo.queue.map TxEntry.ticket).Nodup →
    x.ticket = ticket → x.expiry = some d →
    (x.inFlight = false → s.cargo.outcomes.length < 32 →
      exec (.lifetimeExpiry ticket) s = .next { s with
        now := max s.now d
        cargo := { s.cargo with
          queue := before ++ after
          outcomes := s.cargo.outcomes ++ [⟨ticket, .expired, none⟩] }
        port := { s.port with flags := s.port.flags ||| 0x0040#15 } }) ∧
    (x.inFlight = true →
      exec (.lifetimeExpiry ticket) s = .next { s with
        now := max s.now d
        cargo := { s.cargo with queue := before ++ { x with lapsed := true } :: after } })

/-- The review of an entry (R137 to R139): its destination first. A bound position follows its carriage's identity from
the previous roster to the current one; an unbound position is bound where it names another HEARD carriage; an identity
must be HEARD; the other modes stay. Then its payload, which must not exceed the current roster's joint payload. -/
def Obligations.RenameFollowsIdentity : Prop :=
  ∀ (prev cur : Roster),
    (∀ p id q, prev.idAt p = some id → cur.posOf id = some q →
      reviewDest (some prev) cur (.position p true) = .ok (.position q true) ∧
        cur.idAt q = some id) ∧
    (∀ p id, prev.idAt p = some id → cur.posOf id = none →
      reviewDest (some prev) cur (.position p true) = .error .departed) ∧
    (∀ p, prev.idAt p = none →
      reviewDest (some prev) cur (.position p true) = .error .unresolved) ∧
    (∀ previous p id, cur.idAt p = some id → p ≠ cur.ownPos →
      reviewDest previous cur (.position p false) = .ok (.position p true)) ∧
    (∀ previous p, cur.idAt p = none ∨ p = cur.ownPos →
      reviewDest previous cur (.position p false) = .error .unresolved) ∧
    (∀ previous id, id ∈ cur.heardIds →
      reviewDest previous cur (.identity id) = .ok (.identity id)) ∧
    (∀ previous id, id ∉ cur.heardIds →
      reviewDest previous cur (.identity id) = .error .departed) ∧
    (∀ previous d, d = .leading ∨ d = .trailing ∨ d = .all → reviewDest previous cur d = .ok d) ∧
    (∀ (previous : Option Roster) (x : TxEntry),
      (∀ kind, reviewDest previous cur x.dest = .error kind → reviewEntry previous cur x = .error kind) ∧
      (∀ d, reviewDest previous cur x.dest = .ok d →
        (x.payload.length ≤ cur.jointPayload.bytes →
          reviewEntry previous cur x = .ok { x with dest := d, renameOwed := false }) ∧
        (cur.jointPayload.bytes < x.payload.length → reviewEntry previous cur x = .error .oversize)))

/-! ## The whole machine -/

/-- The machine right after reset is a safe state. -/
def Obligations.ResetIsSafe : Prop := Safe State.reset

/-- Part state, controller state and composition state stay together, and so do what they say of transmission,
reception, the idle count, rest, windows and RESETN (R26, R42, R62, R88, R155, R165, R171): every step keeps Modes. -/
def Obligations.StepKeepsModes : Prop :=
  ∀ s t : State, Modes s → step s = .next t → Modes t

/-- The chain units stay sound (R4 to R6, R8, R12 to R20, R22): every step keeps the drive codes in 1..16 and following
the other end's count, and each decoder's items in agreement with its state. -/
def Obligations.StepKeepsChains : Prop :=
  ∀ s t : State, Modes s → ImageOk s → Chains s → step s = .next t → Chains t ∧ ImageOk t

/-- The heard table stays sound (R56 to R61): every step keeps it at 16 entries or fewer, of different identities,
each of the own epoch, with an entry for the station itself outside IDLE. -/
def Obligations.StepKeepsHeardTable : Prop :=
  ∀ s t : State, Modes s → TableOk s → step s = .next t → TableOk t

/-- The queues stay sound, and an entry is in flight exactly while its frame is in transmission (R125, R127, R130,
R131, R143, R145): every step keeps it. -/
def Obligations.StepKeepsQueuesAndFlight : Prop :=
  ∀ s t : State, Modes s → QueueOk s.cargo → FlightOk s → step s = .next t →
    QueueOk t.cargo ∧ FlightOk t

/-- The counts and levels the spec bounds stay in their ranges (R50, R76, R79, R114, R115, R117). -/
def Obligations.StepKeepsLevels : Prop :=
  ∀ s t : State, LevelsOk s → step s = .next t → LevelsOk t

/-- The three rosters stay sound and in agreement with the composition state (R63, R72, R74, R82, R105, R107, R108,
R112): every step keeps each at 1..16 positions with no identity twice and the own identity at the own position, a
pending roster exactly in CONFIRM, and in SETTLED and LIMP a current one of that kind and of the own epoch. -/
def Obligations.StepKeepsRosters : Prop :=
  ∀ s t : State, Modes s → TableOk s → RostersOk s → step s = .next t → RostersOk t

/-- What RUNNING and SILENCED keep. The configuration is fixed from START (R157, R168): outside UNCONFIGURED nothing
but a hardware reset changes image, routing mask or ceiling limit. SILENCED is left by RESTART or a hardware reset
alone (R41, R155). No counter is lowered but by a hardware reset (R43, R145). A flag is cleared by READ EVENTS,
RESTART and a hardware reset alone (R167). The clock never goes back. -/
def Obligations.PersistentStateIsKept : Prop :=
  ∀ (c : Instr) (s t : State), (∀ edge, c ≠ .hardwareReset edge) → exec c s = .next t →
    (s.port.part ≠ .unconfigured →
      t.port.image = s.port.image ∧ t.port.mask = s.port.mask ∧ t.grade.limit = s.grade.limit) ∧
    (Modes s → s.port.part = .silenced → (∀ x, c ≠ .restart x) →
      t.port.part = .silenced ∧ t.bus.tx = none ∧ t.comp.epoch = s.comp.epoch) ∧
    (∀ n, (s.bus.counters.get n).toNat ≤ (t.bus.counters.get n).toNat) ∧
    s.cargo.outcomeLoss.toNat ≤ t.cargo.outcomeLoss.toNat ∧
    ((∀ x, c ≠ .readEvents x) → (∀ x, c ≠ .restart x) →
      ∀ n, s.flagSet n = true → t.flagSet n = true) ∧
    s.now ≤ t.now

/-- Cargo starts only through an open gate (R63, R129): a cargo frame begins transmission only in SETTLED, in LIMP
or throughout a background round. -/
def Obligations.CargoStartsOnlyThroughOpenGate : Prop :=
  ∀ (c : Instr) (s t : State) (ticket : Nat), Modes s → s.flight = none → exec c s = .next t →
    t.flight = some ticket →
    t.comp.state = .settled ∨ t.comp.state = .limp ∨
      (t.currentIsLimp = true ∧
        (t.comp.state = .quiet ∨ t.comp.state = .offer ∨ t.comp.state = .confirm))

/-- Every command and event answers a next state, and none touches the waiting commands (the model has no fault and
no refusal, log 3). -/
def Obligations.EveryCommandCompletes : Prop :=
  ∀ (c : Instr) (s : State), ∃ t, exec c s = .next t ∧ t.pending = s.pending
end

