-- ==== Sys2Proof/Laws/State.lean ====
section
/-! SUPPORT. One lemma for each field of State under each of its setters, so that no proof unfolds a record
update. -/

namespace Sys2Proof.Machine

variable (s : State)

/-! `State.setNow` -/

@[simp] theorem State.setNow_now (t : Ticks) : (s.setNow t).now = t := rfl
@[simp] theorem State.setNow_chainA (t : Ticks) : (s.setNow t).chainA = s.chainA := rfl
@[simp] theorem State.setNow_chainB (t : Ticks) : (s.setNow t).chainB = s.chainB := rfl
@[simp] theorem State.setNow_bus (t : Ticks) : (s.setNow t).bus = s.bus := rfl
@[simp] theorem State.setNow_comp (t : Ticks) : (s.setNow t).comp = s.comp := rfl
@[simp] theorem State.setNow_cargo (t : Ticks) : (s.setNow t).cargo = s.cargo := rfl
@[simp] theorem State.setNow_grade (t : Ticks) : (s.setNow t).grade = s.grade := rfl
@[simp] theorem State.setNow_port (t : Ticks) : (s.setNow t).port = s.port := rfl
@[simp] theorem State.setNow_pending (t : Ticks) : (s.setNow t).pending = s.pending := rfl
@[simp] theorem State.setNow_setNow (t w : Ticks) : (s.setNow t).setNow w = s.setNow w := rfl
@[simp] theorem State.setNow_self : s.setNow s.now = s := rfl
@[simp] theorem State.setNow_chain (t : Ticks) (e : End) : (s.setNow t).chain e = s.chain e := by
  cases e <;> rfl

/-! `State.setBus` -/

@[simp] theorem State.setBus_now (b : Bus) : (s.setBus b).now = s.now := rfl
@[simp] theorem State.setBus_chainA (b : Bus) : (s.setBus b).chainA = s.chainA := rfl
@[simp] theorem State.setBus_chainB (b : Bus) : (s.setBus b).chainB = s.chainB := rfl
@[simp] theorem State.setBus_bus (b : Bus) : (s.setBus b).bus = b := rfl
@[simp] theorem State.setBus_comp (b : Bus) : (s.setBus b).comp = s.comp := rfl
@[simp] theorem State.setBus_cargo (b : Bus) : (s.setBus b).cargo = s.cargo := rfl
@[simp] theorem State.setBus_grade (b : Bus) : (s.setBus b).grade = s.grade := rfl
@[simp] theorem State.setBus_port (b : Bus) : (s.setBus b).port = s.port := rfl
@[simp] theorem State.setBus_pending (b : Bus) : (s.setBus b).pending = s.pending := rfl
@[simp] theorem State.setBus_setBus (b w : Bus) : (s.setBus b).setBus w = s.setBus w := rfl
@[simp] theorem State.setBus_self : s.setBus s.bus = s := rfl
@[simp] theorem State.setBus_chain (b : Bus) (e : End) : (s.setBus b).chain e = s.chain e := by
  cases e <;> rfl

/-! `State.setComp` -/

@[simp] theorem State.setComp_now (c : Comp) : (s.setComp c).now = s.now := rfl
@[simp] theorem State.setComp_chainA (c : Comp) : (s.setComp c).chainA = s.chainA := rfl
@[simp] theorem State.setComp_chainB (c : Comp) : (s.setComp c).chainB = s.chainB := rfl
@[simp] theorem State.setComp_bus (c : Comp) : (s.setComp c).bus = s.bus := rfl
@[simp] theorem State.setComp_comp (c : Comp) : (s.setComp c).comp = c := rfl
@[simp] theorem State.setComp_cargo (c : Comp) : (s.setComp c).cargo = s.cargo := rfl
@[simp] theorem State.setComp_grade (c : Comp) : (s.setComp c).grade = s.grade := rfl
@[simp] theorem State.setComp_port (c : Comp) : (s.setComp c).port = s.port := rfl
@[simp] theorem State.setComp_pending (c : Comp) : (s.setComp c).pending = s.pending := rfl
@[simp] theorem State.setComp_setComp (c w : Comp) : (s.setComp c).setComp w = s.setComp w := rfl
@[simp] theorem State.setComp_self : s.setComp s.comp = s := rfl
@[simp] theorem State.setComp_chain (c : Comp) (e : End) : (s.setComp c).chain e = s.chain e := by
  cases e <;> rfl

/-! `State.setCargo` -/

@[simp] theorem State.setCargo_now (c : Cargo) : (s.setCargo c).now = s.now := rfl
@[simp] theorem State.setCargo_chainA (c : Cargo) : (s.setCargo c).chainA = s.chainA := rfl
@[simp] theorem State.setCargo_chainB (c : Cargo) : (s.setCargo c).chainB = s.chainB := rfl
@[simp] theorem State.setCargo_bus (c : Cargo) : (s.setCargo c).bus = s.bus := rfl
@[simp] theorem State.setCargo_comp (c : Cargo) : (s.setCargo c).comp = s.comp := rfl
@[simp] theorem State.setCargo_cargo (c : Cargo) : (s.setCargo c).cargo = c := rfl
@[simp] theorem State.setCargo_grade (c : Cargo) : (s.setCargo c).grade = s.grade := rfl
@[simp] theorem State.setCargo_port (c : Cargo) : (s.setCargo c).port = s.port := rfl
@[simp] theorem State.setCargo_pending (c : Cargo) : (s.setCargo c).pending = s.pending := rfl
@[simp] theorem State.setCargo_setCargo (c w : Cargo) : (s.setCargo c).setCargo w = s.setCargo w := rfl
@[simp] theorem State.setCargo_self : s.setCargo s.cargo = s := rfl
@[simp] theorem State.setCargo_chain (c : Cargo) (e : End) : (s.setCargo c).chain e = s.chain e := by
  cases e <;> rfl

/-! `State.setGrade` -/

@[simp] theorem State.setGrade_now (g : GradeMonitor) : (s.setGrade g).now = s.now := rfl
@[simp] theorem State.setGrade_chainA (g : GradeMonitor) : (s.setGrade g).chainA = s.chainA := rfl
@[simp] theorem State.setGrade_chainB (g : GradeMonitor) : (s.setGrade g).chainB = s.chainB := rfl
@[simp] theorem State.setGrade_bus (g : GradeMonitor) : (s.setGrade g).bus = s.bus := rfl
@[simp] theorem State.setGrade_comp (g : GradeMonitor) : (s.setGrade g).comp = s.comp := rfl
@[simp] theorem State.setGrade_cargo (g : GradeMonitor) : (s.setGrade g).cargo = s.cargo := rfl
@[simp] theorem State.setGrade_grade (g : GradeMonitor) : (s.setGrade g).grade = g := rfl
@[simp] theorem State.setGrade_port (g : GradeMonitor) : (s.setGrade g).port = s.port := rfl
@[simp] theorem State.setGrade_pending (g : GradeMonitor) : (s.setGrade g).pending = s.pending := rfl
@[simp] theorem State.setGrade_setGrade (g w : GradeMonitor) : (s.setGrade g).setGrade w = s.setGrade w := rfl
@[simp] theorem State.setGrade_self : s.setGrade s.grade = s := rfl
@[simp] theorem State.setGrade_chain (g : GradeMonitor) (e : End) : (s.setGrade g).chain e = s.chain e := by
  cases e <;> rfl

/-! `State.setPort` -/

@[simp] theorem State.setPort_now (p : Port) : (s.setPort p).now = s.now := rfl
@[simp] theorem State.setPort_chainA (p : Port) : (s.setPort p).chainA = s.chainA := rfl
@[simp] theorem State.setPort_chainB (p : Port) : (s.setPort p).chainB = s.chainB := rfl
@[simp] theorem State.setPort_bus (p : Port) : (s.setPort p).bus = s.bus := rfl
@[simp] theorem State.setPort_comp (p : Port) : (s.setPort p).comp = s.comp := rfl
@[simp] theorem State.setPort_cargo (p : Port) : (s.setPort p).cargo = s.cargo := rfl
@[simp] theorem State.setPort_grade (p : Port) : (s.setPort p).grade = s.grade := rfl
@[simp] theorem State.setPort_port (p : Port) : (s.setPort p).port = p := rfl
@[simp] theorem State.setPort_pending (p : Port) : (s.setPort p).pending = s.pending := rfl
@[simp] theorem State.setPort_setPort (p w : Port) : (s.setPort p).setPort w = s.setPort w := rfl
@[simp] theorem State.setPort_self : s.setPort s.port = s := rfl
@[simp] theorem State.setPort_chain (p : Port) (e : End) : (s.setPort p).chain e = s.chain e := by
  cases e <;> rfl

/-! `State.setPending` -/

@[simp] theorem State.setPending_now (q : List Instr) : (s.setPending q).now = s.now := rfl
@[simp] theorem State.setPending_chainA (q : List Instr) : (s.setPending q).chainA = s.chainA := rfl
@[simp] theorem State.setPending_chainB (q : List Instr) : (s.setPending q).chainB = s.chainB := rfl
@[simp] theorem State.setPending_bus (q : List Instr) : (s.setPending q).bus = s.bus := rfl
@[simp] theorem State.setPending_comp (q : List Instr) : (s.setPending q).comp = s.comp := rfl
@[simp] theorem State.setPending_cargo (q : List Instr) : (s.setPending q).cargo = s.cargo := rfl
@[simp] theorem State.setPending_grade (q : List Instr) : (s.setPending q).grade = s.grade := rfl
@[simp] theorem State.setPending_port (q : List Instr) : (s.setPending q).port = s.port := rfl
@[simp] theorem State.setPending_pending (q : List Instr) : (s.setPending q).pending = q := rfl
@[simp] theorem State.setPending_chain (q : List Instr) (e : End) :
    (s.setPending q).chain e = s.chain e := by cases e <;> rfl

/-! `State.chain` and `State.setChain` -/

@[simp] theorem State.chain_a : s.chain .a = s.chainA := rfl
@[simp] theorem State.chain_b : s.chain .b = s.chainB := rfl
@[simp] theorem State.setChain_now (e : End) (u : ChainUnit) : (s.setChain e u).now = s.now := by
  cases e <;> rfl
@[simp] theorem State.setChain_bus (e : End) (u : ChainUnit) : (s.setChain e u).bus = s.bus := by
  cases e <;> rfl
@[simp] theorem State.setChain_comp (e : End) (u : ChainUnit) : (s.setChain e u).comp = s.comp := by
  cases e <;> rfl
@[simp] theorem State.setChain_cargo (e : End) (u : ChainUnit) : (s.setChain e u).cargo = s.cargo := by
  cases e <;> rfl
@[simp] theorem State.setChain_grade (e : End) (u : ChainUnit) : (s.setChain e u).grade = s.grade := by
  cases e <;> rfl
@[simp] theorem State.setChain_port (e : End) (u : ChainUnit) : (s.setChain e u).port = s.port := by
  cases e <;> rfl
@[simp] theorem State.setChain_pending (e : End) (u : ChainUnit) : (s.setChain e u).pending = s.pending := by
  cases e <;> rfl
@[simp] theorem State.setChain_a_chainA (u : ChainUnit) : (s.setChain .a u).chainA = u := rfl
@[simp] theorem State.setChain_a_chainB (u : ChainUnit) : (s.setChain .a u).chainB = s.chainB := rfl
@[simp] theorem State.setChain_b_chainA (u : ChainUnit) : (s.setChain .b u).chainA = s.chainA := rfl
@[simp] theorem State.setChain_b_chainB (u : ChainUnit) : (s.setChain .b u).chainB = u := rfl
@[simp] theorem State.chain_setChain_same (e : End) (u : ChainUnit) : (s.setChain e u).chain e = u := by
  cases e <;> rfl
@[simp] theorem State.chain_setChain_other (e : End) (u : ChainUnit) :
    (s.setChain e u).chain e.other = s.chain e.other := by cases e <;> rfl
@[simp] theorem State.chain_setChain_of_other (e : End) (u : ChainUnit) :
    (s.setChain e.other u).chain e = s.chain e := by cases e <;> rfl
@[simp] theorem State.setChain_self (e : End) : s.setChain e (s.chain e) = s := by cases e <;> rfl
@[simp] theorem End.other_other (e : End) : e.other.other = e := by cases e <;> rfl
@[simp] theorem End.other_ne (e : End) : e.other ≠ e := by cases e <;> decide
@[simp] theorem End.ne_other (e : End) : e ≠ e.other := by cases e <;> decide

/-! `State.advanceTo`, `State.notify`, `State.notifyIf` -/

@[simp] theorem State.advanceTo_now (t : Ticks) : (s.advanceTo t).now = max s.now t := rfl
@[simp] theorem State.advanceTo_chainA (t : Ticks) : (s.advanceTo t).chainA = s.chainA := rfl
@[simp] theorem State.advanceTo_chainB (t : Ticks) : (s.advanceTo t).chainB = s.chainB := rfl
@[simp] theorem State.advanceTo_bus (t : Ticks) : (s.advanceTo t).bus = s.bus := rfl
@[simp] theorem State.advanceTo_comp (t : Ticks) : (s.advanceTo t).comp = s.comp := rfl
@[simp] theorem State.advanceTo_cargo (t : Ticks) : (s.advanceTo t).cargo = s.cargo := rfl
@[simp] theorem State.advanceTo_grade (t : Ticks) : (s.advanceTo t).grade = s.grade := rfl
@[simp] theorem State.advanceTo_port (t : Ticks) : (s.advanceTo t).port = s.port := rfl
@[simp] theorem State.advanceTo_pending (t : Ticks) : (s.advanceTo t).pending = s.pending := rfl
@[simp] theorem State.advanceTo_chain (t : Ticks) (e : End) : (s.advanceTo t).chain e = s.chain e := by
  cases e <;> rfl
@[simp] theorem State.notify_now (n : Notice) : (s.notify n).now = s.now := rfl
@[simp] theorem State.notifyIf_now (c : Bool) (n : Notice) : (s.notifyIf c n).now = s.now := by
  cases c <;> rfl
@[simp] theorem State.notify_chainA (n : Notice) : (s.notify n).chainA = s.chainA := rfl
@[simp] theorem State.notifyIf_chainA (c : Bool) (n : Notice) : (s.notifyIf c n).chainA = s.chainA := by
  cases c <;> rfl
@[simp] theorem State.notify_chainB (n : Notice) : (s.notify n).chainB = s.chainB := rfl
@[simp] theorem State.notifyIf_chainB (c : Bool) (n : Notice) : (s.notifyIf c n).chainB = s.chainB := by
  cases c <;> rfl
@[simp] theorem State.notify_bus (n : Notice) : (s.notify n).bus = s.bus := rfl
@[simp] theorem State.notifyIf_bus (c : Bool) (n : Notice) : (s.notifyIf c n).bus = s.bus := by
  cases c <;> rfl
@[simp] theorem State.notify_comp (n : Notice) : (s.notify n).comp = s.comp := rfl
@[simp] theorem State.notifyIf_comp (c : Bool) (n : Notice) : (s.notifyIf c n).comp = s.comp := by
  cases c <;> rfl
@[simp] theorem State.notify_cargo (n : Notice) : (s.notify n).cargo = s.cargo := rfl
@[simp] theorem State.notifyIf_cargo (c : Bool) (n : Notice) : (s.notifyIf c n).cargo = s.cargo := by
  cases c <;> rfl
@[simp] theorem State.notify_grade (n : Notice) : (s.notify n).grade = s.grade := rfl
@[simp] theorem State.notifyIf_grade (c : Bool) (n : Notice) : (s.notifyIf c n).grade = s.grade := by
  cases c <;> rfl
@[simp] theorem State.notify_port (n : Notice) :
    (s.notify n).port = { s.port with flags := s.port.flags ||| n.flag } := rfl
@[simp] theorem State.notifyIf_port (c : Bool) (n : Notice) :
    (s.notifyIf c n).port =
      { s.port with flags := if c then s.port.flags ||| n.flag else s.port.flags } := by cases c <;> rfl
@[simp] theorem State.notify_pending (n : Notice) : (s.notify n).pending = s.pending := rfl
@[simp] theorem State.notifyIf_pending (c : Bool) (n : Notice) : (s.notifyIf c n).pending = s.pending := by
  cases c <;> rfl
@[simp] theorem State.notify_chain (n : Notice) (e : End) : (s.notify n).chain e = s.chain e := by
  cases e <;> rfl
@[simp] theorem State.notifyIf_chain (c : Bool) (n : Notice) (e : End) :
    (s.notifyIf c n).chain e = s.chain e := by cases c <;> cases e <;> rfl

end Sys2Proof.Machine
end

