-- ==== Sys2Proof/Laws/Blocks.lean ====
section
/-! SUPPORT. What the cargo router, the composition engine and the bus controller can change: one relation for
each block, and for each of its operations one lemma that the operation stays within it. -/

namespace Sys2Proof.Machine

/-! ## The relations -/

/-- No counter is lower (R43). -/
def Counters.le (c d : Counters) : Prop := ∀ n, (c.get n).toNat ≤ (d.get n).toNat

/-- The port is the same but for flags that may have been set; none is cleared (R167). -/
def Port.gains (p q : Port) : Prop := q = { p with flags := q.flags } ∧ p.flags ||| q.flags = q.flags

/-- What the cargo router can change: its own state, the flags, the counters (chapter 7). -/
structure CargoStep (s t : State) : Prop where
  now      : t.now = s.now
  chainA   : t.chainA = s.chainA
  chainB   : t.chainB = s.chainB
  comp     : t.comp = s.comp
  grade    : t.grade = s.grade
  pending  : t.pending = s.pending
  bus      : t.bus = { s.bus with counters := t.bus.counters }
  counters : s.bus.counters.le t.bus.counters
  port     : s.port.gains t.port

/-- What the composition engine can change: its own state, the composition slot, and with an adoption the cargo
router's state, the cargo grade, the flags; and the counters (chapter 4). -/
structure EngineStep (s t : State) : Prop where
  now      : t.now = s.now
  chainA   : t.chainA = s.chainA
  chainB   : t.chainB = s.chainB
  grade    : t.grade = s.grade
  pending  : t.pending = s.pending
  bus      : t.bus = { s.bus with
               slot := t.bus.slot, cargoGrade := t.bus.cargoGrade, counters := t.bus.counters }
  counters : s.bus.counters.le t.bus.counters
  port     : s.port.gains t.port

/-- What the bus controller can change: everything but the clock, the chain units, the queue, the grade
monitor's state beside its error count, and the port's state beside the part state and flags (chapter 2). -/
structure ControllerStep (s t : State) : Prop where
  now      : t.now = s.now
  chainA   : t.chainA = s.chainA
  chainB   : t.chainB = s.chainB
  grade    : t.grade = { s.grade with errors := t.grade.errors }
  pending  : t.pending = s.pending
  counters : s.bus.counters.le t.bus.counters
  port     : t.port = { s.port with part := t.port.part, flags := t.port.flags }
  flags    : s.port.flags ||| t.port.flags = t.port.flags

theorem Counters.le_refl (c : Counters) : c.le c := fun _ => Nat.le_refl _

theorem Counters.le_trans {c d e : Counters} (h : c.le d) (h' : d.le e) : c.le e :=
  fun n => Nat.le_trans (h n) (h' n)

theorem satInc_le (c : Counter) : c.toNat ≤ (satInc c).toNat := by
  unfold satInc
  split
  · exact Nat.le_refl _
  · rename_i h
    have : c.toNat ≠ 65535 := fun e => h (BitVec.eq_of_toNat_eq (by simpa using e))
    have := c.isLt
    have e : (c + 1).toNat = (c.toNat + 1) % 65536 := by rw [BitVec.toNat_add]; rfl
    omega

theorem Counters.le_raise (c : Counters) (n : CounterName) : c.le (c.raise n) := by
  intro m
  cases n <;> cases m <;> first | exact Nat.le_refl _ | exact satInc_le _

theorem Port.gains_refl (p : Port) : p.gains p := ⟨rfl, by simp⟩

theorem Port.gains_trans {p q r : Port} (h : p.gains q) (h' : q.gains r) : p.gains r := by
  refine ⟨?_, ?_⟩
  · rw [h'.1, h.1]
  · rw [← h'.2, ← h.2]
    simp only [← BitVec.or_assoc, BitVec.or_self]

theorem CargoStep.refl (s : State) : CargoStep s s :=
  ⟨rfl, rfl, rfl, rfl, rfl, rfl, rfl, Counters.le_refl _, Port.gains_refl _⟩

theorem CargoStep.trans {s t u : State} (h : CargoStep s t) (h' : CargoStep t u) : CargoStep s u where
  now := h'.now.trans h.now
  chainA := h'.chainA.trans h.chainA
  chainB := h'.chainB.trans h.chainB
  comp := h'.comp.trans h.comp
  grade := h'.grade.trans h.grade
  pending := h'.pending.trans h.pending
  bus := by rw [h'.bus, h.bus]
  counters := Counters.le_trans h.counters h'.counters
  port := Port.gains_trans h.port h'.port

theorem EngineStep.refl (s : State) : EngineStep s s :=
  ⟨rfl, rfl, rfl, rfl, rfl, rfl, Counters.le_refl _, Port.gains_refl _⟩

theorem EngineStep.trans {s t u : State} (h : EngineStep s t) (h' : EngineStep t u) :
    EngineStep s u where
  now := h'.now.trans h.now
  chainA := h'.chainA.trans h.chainA
  chainB := h'.chainB.trans h.chainB
  grade := h'.grade.trans h.grade
  pending := h'.pending.trans h.pending
  bus := by rw [h'.bus, h.bus]
  counters := Counters.le_trans h.counters h'.counters
  port := Port.gains_trans h.port h'.port

theorem CargoStep.engine {s t : State} (h : CargoStep s t) : EngineStep s t where
  now := h.now
  chainA := h.chainA
  chainB := h.chainB
  grade := h.grade
  pending := h.pending
  bus := by rw [h.bus]
  counters := h.counters
  port := h.port

theorem ControllerStep.refl (s : State) : ControllerStep s s :=
  ⟨rfl, rfl, rfl, rfl, rfl, Counters.le_refl _, rfl, by simp⟩

theorem ControllerStep.trans {s t u : State} (h : ControllerStep s t) (h' : ControllerStep t u) :
    ControllerStep s u where
  now := h'.now.trans h.now
  chainA := h'.chainA.trans h.chainA
  chainB := h'.chainB.trans h.chainB
  grade := by rw [h'.grade, h.grade]
  pending := h'.pending.trans h.pending
  counters := Counters.le_trans h.counters h'.counters
  port := by rw [h'.port, h.port]
  flags := by
    rw [← h'.flags, ← h.flags]
    simp only [← BitVec.or_assoc, BitVec.or_self]

theorem EngineStep.controller {s t : State} (h : EngineStep s t) : ControllerStep s t where
  now := h.now
  chainA := h.chainA
  chainB := h.chainB
  grade := by rw [h.grade]
  pending := h.pending
  counters := h.counters
  port := by rw [h.port.1]
  flags := h.port.2

/-! ## Notices, counters, slot -/

theorem Port.gains_or (p : Port) (f : BitVec 15) : p.gains { p with flags := p.flags ||| f } :=
  ⟨rfl, by simp only [← BitVec.or_assoc, BitVec.or_self]⟩

theorem notify_cargoStep (n : Notice) (s : State) : CargoStep s (s.notify n) :=
  ⟨rfl, rfl, rfl, rfl, rfl, rfl, rfl, Counters.le_refl _, Port.gains_or _ _⟩

theorem notifyIf_cargoStep (c : Bool) (n : Notice) (s : State) : CargoStep s (s.notifyIf c n) := by
  cases c
  · exact CargoStep.refl s
  · exact notify_cargoStep n s

theorem count_cargoStep (n : CounterName) (s : State) : CargoStep s (s.count n) :=
  ⟨rfl, rfl, rfl, rfl, rfl, rfl, rfl, Counters.le_raise _ _, Port.gains_refl _⟩

theorem setCargo_cargoStep (c : Cargo) (s : State) : CargoStep s (s.setCargo c) :=
  ⟨rfl, rfl, rfl, rfl, rfl, rfl, rfl, Counters.le_refl _, Port.gains_refl _⟩

theorem setComp_engineStep (c : Comp) (s : State) : EngineStep s (s.setComp c) :=
  ⟨rfl, rfl, rfl, rfl, rfl, rfl, Counters.le_refl _, Port.gains_refl _⟩

theorem setSlot_engineStep (f : Option CompFrame) (s : State) :
    EngineStep s (s.setBus { s.bus with slot := f }) :=
  ⟨rfl, rfl, rfl, rfl, rfl, rfl, Counters.le_refl _, Port.gains_refl _⟩

theorem setCargoGrade_engineStep (g : Grade) (s : State) :
    EngineStep s (s.setBus { s.bus with cargoGrade := g }) :=
  ⟨rfl, rfl, rfl, rfl, rfl, rfl, Counters.le_refl _, Port.gains_refl _⟩

theorem handIn_engineStep (f : CompFrame) (s : State) : EngineStep s (s.handIn f) :=
  setSlot_engineStep _ _

theorem handBack_engineStep (f : CompFrame) (s : State) : EngineStep s (s.handBack f) := by
  unfold State.handBack
  split
  · exact EngineStep.refl s
  · exact handIn_engineStep f s

/-! ## The cargo router -/

theorem post_cargoStep (ticket : Nat) (k : OutcomeKind) (p : Option Nat) (s : State) :
    CargoStep s (s.post ticket k p) := by
  unfold State.post
  split <;> exact (setCargo_cargoStep _ _).trans (notify_cargoStep _ _)

theorem mapEntry_cargoStep (ticket : Nat) (f : TxEntry → TxEntry) (s : State) :
    CargoStep s (s.mapEntry ticket f) := setCargo_cargoStep _ _

theorem removeEntry_cargoStep (ticket : Nat) (k : OutcomeKind) (p : Option Nat) (s : State) :
    CargoStep s (s.removeEntry ticket k p) :=
  (setCargo_cargoStep _ _).trans (post_cargoStep _ _ _ _)

theorem renameOne_cargoStep (prev : Option Roster) (cur : Roster) (s : State) (x : TxEntry) :
    CargoStep s (s.renameOne prev cur x) := by
  unfold State.renameOne
  split
  · exact mapEntry_cargoStep _ _ _
  · split
    · exact mapEntry_cargoStep _ _ _
    · exact removeEntry_cargoStep _ _ _ _

/-- A fold of operations that stay within a reflexive and transitive relation stays within it. -/
theorem foldl_within {α : Type} {R : State → State → Prop} (refl : ∀ s, R s s)
    (trans : ∀ {s t u}, R s t → R t u → R s u) (f : State → α → State) (hf : ∀ s x, R s (f s x))
    (l : List α) (s : State) : R s (l.foldl f s) := by
  induction l generalizing s with
  | nil => exact refl s
  | cons x xs ih => exact trans (hf s x) (ih (f s x))

theorem renamePass_cargoStep (s : State) : CargoStep s s.renamePass := by
  unfold State.renamePass
  split
  · exact CargoStep.refl s
  · exact foldl_within CargoStep.refl CargoStep.trans _ (fun s x => renameOne_cargoStep _ _ s x) _ _

theorem returnEntry_cargoStep (ticket : Nat) (s : State) : CargoStep s (s.returnEntry ticket) := by
  unfold State.returnEntry
  split
  · exact CargoStep.refl s
  · simp only
    split
    · exact removeEntry_cargoStep _ _ _ _
    · split
      · split
        · exact mapEntry_cargoStep _ _ _
        · split
          · exact mapEntry_cargoStep _ _ _
          · exact removeEntry_cargoStep _ _ _ _
      · exact mapEntry_cargoStep _ _ _

theorem strikeEntry_cargoStep (ticket : Nat) (s : State) : CargoStep s (s.strikeEntry ticket) := by
  unfold State.strikeEntry
  split
  · exact CargoStep.refl s
  · split
    · exact removeEntry_cargoStep _ _ _ _
    · exact (mapEntry_cargoStep _ _ _).trans (returnEntry_cargoStep _ _)

theorem chooseFrom_cargoStep (cur : Roster) (l : List TxEntry) (s : State) :
    CargoStep s (State.chooseFrom cur l s).1 := by
  induction l generalizing s with
  | nil => exact CargoStep.refl s
  | cons x xs ih =>
    unfold State.chooseFrom
    split
    · exact (removeEntry_cargoStep _ _ _ _).trans (ih _)
    · exact CargoStep.refl s

theorem headCandidate_cargoStep (s : State) : CargoStep s s.headCandidate.1 := by
  unfold State.headCandidate
  split
  · split
    · exact chooseFrom_cargoStep _ _ _
    · exact CargoStep.refl s
  · exact CargoStep.refl s

theorem flush_cargoStep (s : State) : CargoStep s s.flush :=
  foldl_within CargoStep.refl CargoStep.trans _ (fun s _ => removeEntry_cargoStep _ _ _ s) _ _

theorem storeArrival_cargoStep (x : RxEntry) (s : State) : CargoStep s (s.storeArrival x) := by
  unfold State.storeArrival
  split
  · exact (setCargo_cargoStep _ _).trans (notify_cargoStep _ _)
  · exact (notify_cargoStep _ _).trans (count_cargoStep _ _)

theorem deliverCargo_cargoStep (f : Frame) (s : State) : CargoStep s (s.deliverCargo f) := by
  unfold State.deliverCargo
  split
  · exact CargoStep.refl s
  · split
    · exact count_cargoStep _ _
    · simp only
      repeat' split
      all_goals first
        | exact storeArrival_cargoStep _ _
        | exact CargoStep.refl s

/-! ## The composition engine -/

theorem buildOffer_engineStep (s : State) : EngineStep s s.buildOffer :=
  (setComp_engineStep _ _).trans (handIn_engineStep _ _)

theorem takeOffer_engineStep (src : Identity) (o : OfferFields) (s : State) :
    EngineStep s (s.takeOffer src o).1 := by
  unfold State.takeOffer
  split
  · exact setComp_engineStep _ _
  · split <;> exact setComp_engineStep _ _

theorem recordConfirm_engineStep (src : Identity) (d : Digest) (s : State) :
    EngineStep s (s.recordConfirm src d) := setComp_engineStep _ _

theorem clearConfirm_engineStep (src : Identity) (s : State) : EngineStep s (s.clearConfirm src) :=
  setComp_engineStep _ _

theorem enterQuiet_engineStep (s : State) : EngineStep s s.enterQuiet := setComp_engineStep _ _

theorem changeEpoch_engineStep (e : Epoch) (s : State) : EngineStep s (s.changeEpoch e) :=
  (((setComp_engineStep _ _).trans (setSlot_engineStep _ _)).trans (setComp_engineStep _ _)).trans
    (enterQuiet_engineStep _)

theorem recordReason_engineStep (r : Reason) (s : State) : EngineStep s (s.recordReason r) :=
  setComp_engineStep _ _

theorem raiseEpoch_engineStep (s : State) : EngineStep s s.raiseEpoch := changeEpoch_engineStep _ _

theorem trigger_engineStep (r : Reason) (s : State) : EngineStep s (s.trigger r) := by
  unfold State.trigger
  split
  · split
    · exact (recordReason_engineStep _ _).trans (raiseEpoch_engineStep _)
    · exact EngineStep.refl s
  · exact EngineStep.refl s
  · split
    · exact (recordReason_engineStep _ _).trans (setComp_engineStep _ _)
    · exact (recordReason_engineStep _ _).trans (raiseEpoch_engineStep _)
  all_goals exact (recordReason_engineStep _ _).trans (raiseEpoch_engineStep _)

theorem adoptEpoch_engineStep (h : Epoch) (s : State) : EngineStep s (s.adoptEpoch h) :=
  (recordReason_engineStep _ _).trans (changeEpoch_engineStep _ _)

theorem adopt_engineStep (limp : Bool) (r : Roster) (s : State) : EngineStep s (s.adopt limp r) := by
  unfold State.adopt
  exact ((((((setComp_engineStep _ _).trans (renamePass_cargoStep _).engine).trans
    (setCargoGrade_engineStep _ _)).trans (setComp_engineStep _ _)).trans
    (notify_cargoStep _ _).engine).trans (notifyIf_cargoStep _ _ _).engine).trans
    (notifyIf_cargoStep _ _ _).engine

theorem enterLimp_engineStep (s : State) : EngineStep s s.enterLimp := adopt_engineStep _ _ _

theorem roundFailed_engineStep (s : State) : EngineStep s s.roundFailed := by
  unfold State.roundFailed
  simp only
  split
  · exact (setComp_engineStep _ _).trans (raiseEpoch_engineStep _)
  · exact (setComp_engineStep _ _).trans (enterLimp_engineStep _)

theorem checkAdoption_engineStep (s : State) : EngineStep s s.checkAdoption := by
  unfold State.checkAdoption
  split
  · split
    · exact adopt_engineStep _ _ _
    · exact EngineStep.refl s
  · exact EngineStep.refl s

theorem ownConfirm_engineStep (s : State) : EngineStep s s.ownConfirm := by
  unfold State.ownConfirm
  split
  · exact EngineStep.refl s
  · exact (((recordConfirm_engineStep _ _ _).trans (handIn_engineStep _ _)).trans
      (setComp_engineStep _ _)).trans (checkAdoption_engineStep _)

theorem enterOffer_engineStep (s : State) : EngineStep s s.enterOffer :=
  (setComp_engineStep _ _).trans (buildOffer_engineStep _)

theorem tryPlacement_engineStep (s : State) : EngineStep s s.tryPlacement := by
  unfold State.tryPlacement
  split
  · split
    · exact (setComp_engineStep _ _).trans (ownConfirm_engineStep _)
    · exact roundFailed_engineStep s
    · exact roundFailed_engineStep s
    · exact roundFailed_engineStep s
    · exact enterLimp_engineStep s
  · exact EngineStep.refl s

theorem answerConfirm_engineStep (s : State) : EngineStep s s.answerConfirm := by
  unfold State.answerConfirm
  split
  · exact handIn_engineStep _ _
  · exact EngineStep.refl s

theorem noteHeard_engineStep (src : Identity) (s : State) : EngineStep s (s.noteHeard src) :=
  setComp_engineStep _ _

theorem afterOffer_engineStep (src : Identity) (r : TableResult) (s : State) :
    EngineStep s (s.afterOffer src r) := by
  unfold State.afterOffer
  repeat' split
  all_goals first
    | exact EngineStep.refl s
    | exact tryPlacement_engineStep s
    | exact enterOffer_engineStep s
    | exact answerConfirm_engineStep s
    | exact trigger_engineStep _ s

theorem receiveOffer_engineStep (src : Identity) (o : OfferFields) (s : State) :
    EngineStep s (s.receiveOffer src o) := by
  unfold State.receiveOffer
  split
  · exact (takeOffer_engineStep _ _ _).trans (afterOffer_engineStep _ _ _)
  · exact (adoptEpoch_engineStep _ _).trans (takeOffer_engineStep _ _ _)
  · exact (count_cargoStep _ _).engine
  · exact (count_cargoStep _ _).engine

theorem disagree_engineStep (s : State) : EngineStep s s.disagree := by
  unfold State.disagree
  simp only
  split
  · exact (setComp_engineStep _ _).trans (enterOffer_engineStep _)
  · exact (setComp_engineStep _ _).trans (roundFailed_engineStep _)

theorem afterConfirm_engineStep (src : Identity) (d : Digest) (p : Nat) (b : Option HeardEntry)
    (s : State) : EngineStep s (s.afterConfirm src d p b) := by
  unfold State.afterConfirm
  split
  iterate 4 exact EngineStep.refl s
  · split
    · exact EngineStep.refl s
    · split
      · split
        · split
          · exact checkAdoption_engineStep s
          · exact (clearConfirm_engineStep _ _).trans (disagree_engineStep _)
        · exact disagree_engineStep s
      · exact EngineStep.refl s
  all_goals
    split
    · split
      · exact EngineStep.refl s
      · exact answerConfirm_engineStep s
    · split
      · exact trigger_engineStep _ s
      · exact EngineStep.refl s

theorem receiveConfirm_engineStep (src : Identity) (e : Epoch) (d : Digest) (p : Nat) (s : State) :
    EngineStep s (s.receiveConfirm src e d p) := by
  unfold State.receiveConfirm
  split
  · exact (recordConfirm_engineStep _ _ _).trans (afterConfirm_engineStep _ _ _ _ _)
  · exact adoptEpoch_engineStep _ _
  · exact EngineStep.refl s
  · exact EngineStep.refl s

theorem receivePresence_engineStep (src : Identity) (e : Epoch) (d : Digest) (s : State) :
    EngineStep s (s.receivePresence src e d) := by
  unfold State.receivePresence State.checkPresence
  repeat' split
  all_goals first
    | exact EngineStep.refl s
    | exact adoptEpoch_engineStep _ _
    | exact trigger_engineStep _ s
    | exact (count_cargoStep _ _).engine

theorem deliverComp_engineStep (f : Frame) (s : State) : EngineStep s (s.deliverComp f) := by
  unfold State.deliverComp
  split
  · exact EngineStep.refl s
  · split
    · exact EngineStep.refl s
    · exact (noteHeard_engineStep _ _).trans (receiveOffer_engineStep _ _ _)
    · exact (noteHeard_engineStep _ _).trans (receiveConfirm_engineStep _ _ _ _ _)
    · exact (noteHeard_engineStep _ _).trans (receivePresence_engineStep _ _ _ _)

theorem halt_engineStep (s : State) : EngineStep s s.halt := setComp_engineStep _ _

/-! ## The bus controller -/

theorem setBus_controllerStep (b : Bus) (s : State) (h : s.bus.counters = b.counters) :
    ControllerStep s (s.setBus b) :=
  ⟨rfl, rfl, rfl, rfl, rfl, by simp [h, Counters.le_refl], rfl, by simp⟩

theorem reportError_controllerStep (s : State) : ControllerStep s s.reportError :=
  ⟨rfl, rfl, rfl, rfl, rfl, Counters.le_refl _, rfl, by simp [State.reportError]⟩

theorem setPart_controllerStep (p : PartState) (s : State) :
    ControllerStep s (s.setPort { s.port with part := p }) :=
  ⟨rfl, rfl, rfl, rfl, rfl, Counters.le_refl _, rfl, by simp⟩

theorem select_cargoStep (s : State) : CargoStep s s.select.1 := by
  unfold State.select
  split
  · exact CargoStep.refl s
  · split
    · exact CargoStep.refl s
    · exact headCandidate_cargoStep s

theorem transmit_controllerStep (t : Tx) (s : State) : ControllerStep s (s.transmit t) :=
  setBus_controllerStep _ _ (by rfl)

theorem startFrame_controllerStep (x : Selection) (s : State) : ControllerStep s (s.startFrame x) := by
  unfold State.startFrame
  split
  · split
    · exact (setBus_controllerStep _ _ (by rfl)).trans (transmit_controllerStep _ _)
    · exact ControllerStep.refl s
  · split
    · exact (mapEntry_cargoStep _ _ _).engine.controller.trans (transmit_controllerStep _ _)
    · exact ControllerStep.refl s

theorem atIdle_controllerStep (s : State) : ControllerStep s s.atIdle := by
  unfold State.atIdle
  simp only
  split
  · exact (select_cargoStep s).engine.controller.trans (setBus_controllerStep _ _ (by rfl))
  · split
    · exact (select_cargoStep s).engine.controller.trans (startFrame_controllerStep _ _)
    · exact (select_cargoStep s).engine.controller.trans (setBus_controllerStep _ _ (by rfl))

theorem sendWaiting_controllerStep (s : State) : ControllerStep s s.sendWaiting := by
  unfold State.sendWaiting
  split
  · exact atIdle_controllerStep s
  · exact ControllerStep.refl s

theorem giveBack_engineStep (o : Origin) (s : State) : EngineStep s (s.giveBack o) := by
  unfold State.giveBack
  split
  · exact handBack_engineStep _ _
  · exact (returnEntry_cargoStep _ _).engine

theorem giveBackStruck_engineStep (o : Origin) (s : State) : EngineStep s (s.giveBackStruck o) := by
  unfold State.giveBackStruck
  split
  · exact handBack_engineStep _ _
  · exact (strikeEntry_cargoStep _ _).engine

theorem stop_controllerStep (s : State) : ControllerStep s s.stop := by
  unfold State.stop
  exact ((((setBus_controllerStep _ _ (by rfl)).trans (setPart_controllerStep _ _)).trans
    (notify_cargoStep _ _).engine.controller).trans (halt_engineStep _).controller).trans
    (flush_cargoStep _).engine.controller

theorem restOrStop_controllerStep (s : State) : ControllerStep s s.restOrStop := by
  unfold State.restOrStop
  split
  · exact stop_controllerStep s
  · exact (setBus_controllerStep _ _ (by rfl)).trans (notify_cargoStep _ _).engine.controller

theorem clash_controllerStep (s : State) : ControllerStep s s.clash := by
  unfold State.clash
  split
  · exact ControllerStep.refl s
  · split
    · exact stop_controllerStep s
    · exact ((setBus_controllerStep _ _ (by rfl)).trans (notify_cargoStep _ _).engine.controller).trans
        (trigger_engineStep _ _).controller

theorem deliver_controllerStep (f : Frame) (s : State) : ControllerStep s (s.deliver f) := by
  unfold State.deliver
  split
  · exact clash_controllerStep s
  · split
    · exact (deliverComp_engineStep _ _).controller
    · exact (deliverCargo_cargoStep _ _).engine.controller

theorem endReception_controllerStep (s : State) : ControllerStep s s.endReception :=
  setBus_controllerStep _ _ (by rfl)

theorem takeReception_controllerStep (r : RxResult) (s : State) :
    ControllerStep s (s.takeReception r) := by
  unfold State.takeReception
  split
  · exact setBus_controllerStep _ _ (by rfl)
  · exact (endReception_controllerStep _).trans (count_cargoStep _ _).engine.controller
  · exact ((endReception_controllerStep _).trans (count_cargoStep _ _).engine.controller).trans
      (reportError_controllerStep _)
  · exact (endReception_controllerStep _).trans (deliver_controllerStep _ _)

theorem idleIn_controllerStep (t : Ticks) (s : State) : ControllerStep s (s.idleIn t) :=
  setBus_controllerStep _ _ (by rfl)

theorem receive_controllerStep (r : Rx) (bits : List Bool) (s : State) :
    ControllerStep s (s.receive r bits) :=
  (idleIn_controllerStep _ _).trans (takeReception_controllerStep _ _)

theorem receiveOwn_controllerStep (f : Frame) (k : Nat) (s : State) :
    ControllerStep s (s.receiveOwn f k) := receive_controllerStep _ _ _

theorem awaitIdle_controllerStep (f : Frame) (k : Nat) (s : State) :
    ControllerStep s (s.awaitIdle f k) := by
  unfold State.awaitIdle
  split
  · exact setBus_controllerStep _ _ (by rfl)
  · exact idleIn_controllerStep _ _

theorem idleReception_controllerStep (s : State) : ControllerStep s s.idleReception := by
  unfold State.idleReception
  split
  · exact takeReception_controllerStep _ _
  · exact ControllerStep.refl s

theorem stopDriving_controllerStep (s : State) : ControllerStep s s.stopDriving :=
  setBus_controllerStep _ _ (by rfl)

theorem beginReceiving_controllerStep (s : State) : ControllerStep s s.beginReceiving :=
  setBus_controllerStep _ _ (by rfl)

theorem countStrike_controllerStep (s : State) : ControllerStep s s.countStrike :=
  (setBus_controllerStep _ _ (by rfl)).trans (reportError_controllerStep _)

theorem struck_controllerStep (o : Origin) (s : State) : ControllerStep s (s.struck o) := by
  unfold State.struck
  simp only
  split
  · exact (((stopDriving_controllerStep _).trans (countStrike_controllerStep _)).trans
      (giveBackStruck_engineStep _ _).controller).trans (restOrStop_controllerStep _)
  · exact ((stopDriving_controllerStep _).trans (countStrike_controllerStep _)).trans
      (giveBackStruck_engineStep _ _).controller

theorem reportCompletion_engineStep (o : Origin) (s : State) : EngineStep s (s.reportCompletion o) := by
  unfold State.reportCompletion State.offerSent
  split
  · exact (setComp_engineStep _ _).trans (tryPlacement_engineStep _)
  · exact EngineStep.refl s
  · exact EngineStep.refl s
  · exact (removeEntry_cargoStep _ _ _ _).engine

end Sys2Proof.Machine
end

