-- ==== Sys2Proof/Laws/Chain.lean ====
section
/-! SUPPORT. The sense decoder, said once: what a judged period leaves, and what the edges of a period do. -/

namespace Sys2Proof.Machine

variable (k p h t : Nat) (d : Decoder)

/-! The judgement of a period leaves the measurement and the level interval to the edges. -/

/-- Another measurement in progress changes the judgement of a period in nothing else. -/
theorem Decoder.judge_measured (m : Option Measurement) :
    ({ d with measure := m } : Decoder).judge k p h = { d.judge k p h with measure := m } := by
  unfold Decoder.judge
  cases candidateOf p h with
  | none =>
    obtain ⟨st⟩ := d
    cases st <;> simp only [Decoder.takeUnclear] <;> (repeat' split) <;> rfl
  | some c =>
    obtain ⟨st⟩ := d
    cases st <;> simp only [Decoder.takeValid, Decoder.compare, Decoder.acquire] <;>
      (repeat' split) <;> rfl

theorem Decoder.judge_level :
    (d.judge k p h).levelFrom = d.levelFrom ∧ (d.judge k p h).highFrom = d.highFrom := by
  unfold Decoder.judge
  cases candidateOf p h with
  | none =>
    obtain ⟨st⟩ := d
    cases st <;> simp only [Decoder.takeUnclear] <;> (repeat' split) <;> simp
  | some c =>
    obtain ⟨st⟩ := d
    cases st <;> simp only [Decoder.takeValid, Decoder.compare, Decoder.acquire] <;>
      (repeat' split) <;> simp

@[simp] theorem Decoder.judge_levelFrom : (d.judge k p h).levelFrom = d.levelFrom :=
  (Decoder.judge_level k p h d).1
@[simp] theorem Decoder.judge_highFrom : (d.judge k p h).highFrom = d.highFrom :=
  (Decoder.judge_level k p h d).2

@[simp] theorem Decoder.rise_measure : (d.rise t).measure = some ⟨t, none⟩ := rfl
@[simp] theorem Decoder.rise_levelFrom : (d.rise t).levelFrom = t := rfl
@[simp] theorem Decoder.rise_highFrom : (d.rise t).highFrom = none := rfl
@[simp] theorem Decoder.rise_state : (d.rise t).state = d.state := rfl
@[simp] theorem Decoder.rise_held : (d.rise t).held = d.held := rfl
@[simp] theorem Decoder.rise_cand : (d.rise t).cand = d.cand := rfl
@[simp] theorem Decoder.rise_run : (d.rise t).run = d.run := rfl
@[simp] theorem Decoder.rise_unclear : (d.rise t).unclear = d.unclear := rfl
@[simp] theorem Decoder.rise_fault : (d.rise t).fault = d.fault := rfl

/-- The whole of a completed period, its completing edge no earlier than its length: P and H come back from the
instants of its edges, the period is judged, and the next one begins (R8). -/
theorem Decoder.takePeriod_eq (hi : d.state ≠ .isolated) (hp : p ≤ t) :
    d.takePeriod k p h t = ((d.judge k p h).rise t) := by
  have e1 : t - (t - p) = p := by omega
  have e2 : t - p + h - (t - p) = h := by omega
  simp only [Decoder.takePeriod, if_neg hi, Decoder.complete, Decoder.fall, Option.map_some, e1, e2,
    Decoder.judge_measured]
  rfl

/-- A period completes only from a high part and a low part in which neither parting nor loss falls. -/
theorem periodCompletes_iff :
    periodCompletes p h = true ↔ 0 < h ∧ h < p ∧ h < 8000 ∧ p - h < 12000 := by
  unfold periodCompletes Config.partingTime Config.lossTime
  simp only [Bool.and_eq_true, decide_eq_true_eq, and_assoc]

end Sys2Proof.Machine
end

