-- ==== Sys2Proof/Laws/Port.lean ====
section
/-! SUPPORT. The taking of a command, said once: the bits a transaction clocks out, and what it leaves behind when
the port is busy, when the command is refused and when it is done. -/

namespace Sys2Proof.Machine

/-! ## Bits clocked out -/

/-- As many bits as cycles are clocked out. -/
@[simp] theorem length_padTo (n : Nat) (data : List Bool) : (padTo n data).length = n := by
  simp [padTo]; omega

@[simp] theorem length_bitsOf (w n : Nat) : (bitsOf w n).length = w := by
  induction w with
  | zero => rfl
  | succ w ih => simp [bitsOf, ih]

@[simp] theorem length_bitsOfBytes (body : List Byte) : (bitsOfBytes body).length = 8 * body.length := by
  induction body with
  | nil => rfl
  | cons b bs ih =>
    have h : bitsOfBytes (b :: bs) = bitsOf 8 b.toNat ++ bitsOfBytes bs := rfl
    rw [h, List.length_append, length_bitsOf, ih, List.length_cons]
    omega

/-- Behind a first byte, whole or not, the data follow and then zeros. -/
theorem padTo_cons (b : Byte) (data : List Byte) (n : Nat) :
    padTo (8 + n) (bitsOfBytes (b :: data)) = bitsOf 8 b.toNat ++ padTo n (bitsOfBytes data) := by
  have h : bitsOfBytes (b :: data) = bitsOf 8 b.toNat ++ bitsOfBytes data := rfl
  simp only [padTo, h, List.take_append, List.length_append, length_bitsOf, Nat.add_sub_cancel_left,
    Nat.add_sub_add_left, List.append_assoc]
  rw [List.take_of_length_le (by simp)]

theorem padTo_nil (n : Nat) : padTo n (bitsOfBytes []) = List.replicate n false := by
  simp [padTo, bitsOfBytes]

/-! ## Transactions -/

/-- The fall of CSN, as a state. -/
theorem csnFalls_eq {s : State} (h : s.port.inReset = false) :
    s.csnFalls = { s with port := { s.port with csn := some s.statusByte, miso := [] } } := by
  simp [State.csnFalls, h, State.setPort]

/-- While RESETN is held low a fall of CSN does nothing. -/
theorem csnFalls_inReset {s : State} (h : s.port.inReset = true) : s.csnFalls = s := by
  simp [State.csnFalls, h]

/-- The rise of CSN, as a state. -/
theorem clockOut_eq (cycles : Nat) (data : List Byte) (s : State) :
    s.clockOut cycles data = { s with port := { s.port with
      csn := none, miso := padTo cycles (bitsOfBytes (s.port.csn.getD 0 :: data)) } } := rfl

/-- The rise of CSN behind a command code, where nothing but zeros follows the status byte. -/
theorem clockOut_zeros (n : Nat) (s : State) :
    s.clockOut (8 + n) [] =
      { s with port := { s.port with csn := none, miso := s.zerosOut n } } := by
  rw [clockOut_eq, padTo_cons, padTo_nil]
  rfl

variable {mosi : List Bool} {answer : List Byte} {s t : State}

/-- A rise of CSN with no transaction in progress does nothing. -/
theorem transfer_none {x : Transfer} {run : List Bool → State → State} (h : s.port.csn = none)
    (hx : x ≠ .csnFalls) : s.transfer x run = s := by
  cases x with
  | csnFalls => exact absurd rfl hx
  | csnRises bits => simp [State.transfer, h]
  | statusRead n => simp [State.transfer, h]

/-- The rise of CSN in a transaction of a row runs what the row does. -/
theorem transfer_rises {run : List Bool → State → State} (h : s.port.csn.isSome = true) :
    s.transfer (.csnRises mosi) run = run mosi s := by simp [State.transfer, h]

variable {run : List Byte → State → State × List Byte}

theorem takeCommand_busy (hc : s.port.csn.isSome = true) (h : s.port.busy = true) :
    s.takeCommand (.csnRises mosi) run = { s with port := { s.port with
      csn := none, overrun := true, miso := s.zerosOut mosi.length } } := by
  rw [State.takeCommand, transfer_rises hc]
  simp [State.endCommand, clockOut_zeros, h, State.overrun, State.setPort]

theorem takeCommand_ready (h : s.ready) :
    s.takeCommand (.csnRises mosi) run =
      (run ((wholeBytes mosi).take 160) (s.clockOut (8 + mosi.length) [])).1.leaveAnswer
        (run ((wholeBytes mosi).take 160) (s.clockOut (8 + mosi.length) [])).2 := by
  rw [State.takeCommand, transfer_rises h.1]
  simp [State.endCommand, clockOut_zeros, h.2]

/-- A command that answers and changes nothing else. -/
theorem takeCommand_answered (h : s.ready)
    (hr : ∀ s1 : State, s1 = s.clockOut (8 + mosi.length) [] →
      run ((wholeBytes mosi).take 160) s1 = (s1, answer)) :
    s.takeCommand (.csnRises mosi) run = s.answered mosi answer := by
  rw [takeCommand_ready h, hr _ rfl, clockOut_zeros]
  rfl

/-- A command that is done with another state. -/
theorem takeCommand_done (h : s.ready)
    (hr : run ((wholeBytes mosi).take 160) (s.clockOut (8 + mosi.length) []) = (t, answer)) :
    s.takeCommand (.csnRises mosi) run = t.leaveAnswer answer := by
  rw [takeCommand_ready h, hr]

/-! The state after `clockOut` differs from the state before in the transaction and the bits clocked out
alone. -/

variable (cycles : Nat) (data : List Byte) (s : State)

@[simp] theorem clockOut_now : (s.clockOut cycles data).now = s.now := rfl
@[simp] theorem clockOut_bus : (s.clockOut cycles data).bus = s.bus := rfl
@[simp] theorem clockOut_comp : (s.clockOut cycles data).comp = s.comp := rfl
@[simp] theorem clockOut_cargo : (s.clockOut cycles data).cargo = s.cargo := rfl
@[simp] theorem clockOut_grade : (s.clockOut cycles data).grade = s.grade := rfl
@[simp] theorem clockOut_pending : (s.clockOut cycles data).pending = s.pending := rfl
@[simp] theorem clockOut_chainA : (s.clockOut cycles data).chainA = s.chainA := rfl
@[simp] theorem clockOut_chainB : (s.clockOut cycles data).chainB = s.chainB := rfl
@[simp] theorem clockOut_chain (e : End) : (s.clockOut cycles data).chain e = s.chain e := by cases e <;> rfl
@[simp] theorem clockOut_part : (s.clockOut cycles data).port.part = s.port.part := rfl
@[simp] theorem clockOut_image : (s.clockOut cycles data).port.image = s.port.image := rfl
@[simp] theorem clockOut_mask : (s.clockOut cycles data).port.mask = s.port.mask := rfl
@[simp] theorem clockOut_cab : (s.clockOut cycles data).port.cab = s.port.cab := rfl
@[simp] theorem clockOut_flags : (s.clockOut cycles data).port.flags = s.port.flags := rfl
@[simp] theorem clockOut_started : (s.clockOut cycles data).started = s.started := rfl
@[simp] theorem clockOut_running : (s.clockOut cycles data).running = s.running := rfl
@[simp] theorem clockOut_identity : (s.clockOut cycles data).identity = s.identity := rfl
@[simp] theorem clockOut_cabEnds : (s.clockOut cycles data).cabEnds = s.cabEnds := rfl
@[simp] theorem clockOut_submitMax : (s.clockOut cycles data).submitMax = s.submitMax := rfl
@[simp] theorem clockOut_submitDest (m : Byte) (v : BitVec 32) :
    (s.clockOut cycles data).submitDest m v = s.submitDest m v := rfl
@[simp] theorem clockOut_entryOf (t : Nat) : (s.clockOut cycles data).entryOf t = s.entryOf t := rfl
@[simp] theorem clockOut_currentIsLimp : (s.clockOut cycles data).currentIsLimp = s.currentIsLimp := rfl

end Sys2Proof.Machine
end

