-- ==== Sys2Proof/Laws/Rounds.lean ====
section
/-! SUPPORT. What a change of the epoch and a trigger leave behind, said once: a new round. -/

namespace Sys2Proof.Machine

theorem enterQuiet_comp (s : State) : s.enterQuiet.comp = { s.comp with
    state := .quiet, holdDue := some (s.now + 320000), cadenceDue := none, retryDue := none
    retryFell := s.comp.retryLeft s.now, offerDone := false
    presenceDue := if s.currentIsLimp then s.comp.presenceDue else none
    watch := if s.currentIsLimp then s.comp.watch else [] } := by
  unfold State.enterQuiet
  cases s.currentIsLimp <;> rfl

theorem changeEpoch_comp (e : Epoch) (s : State) : (s.changeEpoch e).comp = { s.comp with
    state := .quiet, epoch := e, pendingRoster := none, disagreements := 0
    ownSent := 0, offerDone := false, overflow := false, lastEntry := some s.now
    holdDue := some (s.now + 320000), cadenceDue := none, retryDue := none
    retryFell := s.comp.retryLeft s.now, deadlineDue := some (s.now + 8000000)
    table := [⟨s.identity, { s.ownOffer with epoch := e }, none⟩]
    presenceDue := if s.currentIsLimp then s.comp.presenceDue else none
    watch := if s.currentIsLimp then s.comp.watch else [] } := by
  unfold State.changeEpoch
  simp only [enterQuiet_comp]
  rfl

theorem changeEpoch_rest (e : Epoch) (s : State) :
    s.changeEpoch e = { s with comp := (s.changeEpoch e).comp, bus := { s.bus with slot := none } } := by
  unfold State.changeEpoch State.enterQuiet
  rfl

/-- A reason recorded and an epoch raised or adopted make a new round. -/
theorem changeEpoch_newRound (r : Reason) (e : Epoch) (s : State) :
    NewRound s ((s.recordReason r).changeEpoch e) e r where
  comp := by rw [changeEpoch_comp]; rfl
  table := by rw [changeEpoch_comp]; rfl
  rest := changeEpoch_rest _ _

/-- A trigger raises the epoch wherever no chain change meets QUIET. -/
theorem trigger_newRound {r : Reason} {s : State}
    (hs : s.comp.state = .settled ∨ s.comp.state = .limp ∨ s.comp.state = .offer ∨
      s.comp.state = .confirm ∨ (s.comp.state = .quiet ∧ r ≠ .chain ∧ r ≠ .parting)) :
    NewRound s (s.trigger r) (s.comp.epoch + 1) r := by
  have h : s.trigger r = (s.recordReason r).raiseEpoch := by
    unfold State.trigger
    rcases hs with h | h | h | h | ⟨h, h1, h2⟩ <;> simp [*]
  rw [h]
  exact changeEpoch_newRound r _ s

/-- The LIMP RETRY trigger makes a new round in which nothing of the timer is left. -/
theorem retry_newRound {s : State} (hs : s.comp.state = .limp ∨ s.comp.state = .quiet) :
    NewRound (s.setComp s.comp.stopRetry) s.retry (s.comp.epoch + 1) .limpRetry := by
  refine trigger_newRound (s := s.setComp s.comp.stopRetry) ?_
  rcases hs with h | h
  · exact .inr (.inl h)
  · exact .inr (.inr (.inr (.inr ⟨h, by decide, by decide⟩)))

/-- Where a trigger stops the LIMP retry timer at or after its due instant, the expiry is left to be taken. -/
theorem NewRound.retryFell {s t : State} {e : Epoch} {r : Reason} {d : Ticks} (h : NewRound s t e r)
    (hd : s.comp.retryDue = some d) : t.comp.retryFell = if d ≤ t.now then some t.now else none := by
  have hn : t.now = s.now := by rw [h.rest]
  rw [h.comp, hn]
  simp [hd]

/-- A new round and an answer left with it. -/
theorem NewRound.leaveAnswer {s t : State} {e : Epoch} {r : Reason} (h : NewRound s t e r)
    (a : List Byte) : NewRound (s.leaveAnswer a) (t.leaveAnswer a) e r where
  comp := h.comp
  table := h.table
  rest := by
    calc t.leaveAnswer a
        = State.leaveAnswer a { s with comp := t.comp, bus := { s.bus with slot := none } } := by
          rw [← h.rest]
      _ = _ := rfl

end Sys2Proof.Machine
end

