-- ==== Sys2Proof/WellFormed.lean ====
section
/-! DEFINITION. The operands a command or event of the table can carry. -/

namespace Sys2Proof

/-- The most wire bits, stuff bits included, that the start bit and the arbitration field take: 36 bits
and at most floor(35 / 4) stuff bits (R27, R28). -/
def arbitrationBits : Nat := 44

/-- The most wire bits of a frame to the last bit of its end field: 1182 stuffed bits (a body of 140
bytes), at most floor(1181 / 4) stuff bits, and seven bits of end field (R27, R28). -/
def frameBits : Nat := 1484

/-- The operands lie where the spec's own text puts them: a period has a high part and a low part (R3), the
high part shorter than the 2.0 ms of parting and the low part shorter than the 3.0 ms of loss, which
would discard it (R8), a frame has bits, a wire bit lies in its field, an identity is not 0 (R106), a
ticket is 1..255 (R125). The other rows admit every operand: the port disregards or refuses bytes
itself (R154). -/
def wellFormed : Instr → Bool
  | .completedPeriod _ p h => 0 < h && h < p && h < 8000 && p - h < 12000
  | .frameReceived bits => bits ≠ []
  | .lostArbitration bit | .dominantReadRecessive bit => bit < arbitrationBits
  | .strike bit => 36 ≤ bit && bit < frameBits
  | .memberLost id => id ≠ 0
  | .lifetimeExpiry ticket => 1 ≤ ticket && ticket ≤ 255
  | .configure _ | .start _ | .restart _ | .setCab _ | .isolate _ | .recompose _ | .submit _
  | .withdraw _ | .take _ | .readOutcomes _ | .readRoster _ | .readState _ | .readEvents _
  | .readAnswer _ | .commandOverrun _ | .answerReady | .hardwareReset _ | .periodBoundary _ | .loss _
  | .partingSensed _ | .stuckHigh _ | .releaseAsserted _ | .releaseDeasserted _ | .busIdle
  | .cleanCompletion | .restTimerExpiry | .quietHoldEnd | .cadenceTimer | .lastEntryTimeout
  | .roundDeadline | .limpRetry | .presenceSchedulePoint | .windowEnd | .startBitSeen
  | .intermissionPassed => true

end Sys2Proof
end

