-- ==== Sys2Proof/Tests/Slice0.lean ====
section
/-! SUPPORT. Tests of the model: ill-formed terms that WellFormed refuses, the spec's worked examples, and a
witness for each statement of Certificates/Slice0/Obligations.lean that has hypotheses: a state and operands
that meet them all, with what the command then does. The expected values are the spec's, or worked out from
it by hand. -/

namespace Sys2Proof.Tests

open Sys2Proof Sys2Proof.Machine

set_option Elab.async false

/-! ## States for the tests -/

/-- The state a command answers. -/
def after (c : Instr) (s : State) : State :=
  match exec c s with
  | .next t => t
  | .fault _ => s
  | .refused _ => s

/-- A command answers a next state with a property. -/
def ends (c : Instr) (s : State) (p : State → Bool) : Bool :=
  match exec c s with
  | .next t => p t
  | .fault _ => false
  | .refused _ => false

/-- A command answers a given next state. -/
def leaves (c : Instr) (s t : State) : Bool := ends c s fun u => u = t

/-- Station 4102, all grades, payload maximum 64, K = 3, a cab at end A. -/
def image : Image :=
  { identity := 4102, permitted := 0xF, payloadMax := .p64, k := 3, cabEnds := .onlyA }

/-- The state in a transaction that may carry a command. -/
def ready (s : State) : State := { s with port := { s.port with busy := false, csn := some 0x10 } }

/-- A part in a transaction after CONFIGURE. -/
def configured : State :=
  { State.reset with
    port := { Port.reset with image := some image, mask := 0x7FFF, csn := some 0 }
    grade := { GradeMonitor.reset with ceiling := .g4, limit := .g4 } }

/-- A part right after START: QUIET at epoch 1, with a RECOMPOSE waiting. -/
def quiet : State := { ready (after .start configured) with pending := [.recompose] }

/-- A roster of 4102 at position 1 and 4101 at position 2, with the digest of R109's example. -/
def roster : Roster :=
  { epoch := 1, digest := 0x9A3C51E7, ownPos := 1, status := .complete, jointGrade := .g2
    jointPayload := .p32, cabConflict := false, noCab := true, split := false
    entries := [.heard 4102 .forward .idle .g4 .p64, .heard 4101 .reversed .noCab .g2 .p32] }

/-- An offer of 4101 with a triple at each end. -/
def offer (e : Epoch) (a b : Triple) : OfferFields :=
  { epoch := e, endA := ⟨a, false⟩, endB := ⟨b, false⟩, cab := .noCab, ceiling := .g2, payloadMax := .p32 }

/-- The table entry of 4101 at epoch 1, its A end open. -/
def entry4101 : HeardEntry := ⟨4101, offer 1 ⟨.openEnd, 0, none⟩ ⟨.held, 1, some .b⟩, none⟩

/-- The state with the composition engine under a current roster, in a state of its own. -/
def under (c : CompState) (r : Roster) (s : State) : State :=
  { s with
    comp := { s.comp with
      state := c, current := some r, holdDue := none, deadlineDue := none, presenceDue := some 16000
      watch := [⟨4101, 0⟩] }
    bus := { s.bus with cargoGrade := r.jointGrade } }

/-- SETTLED under the roster. -/
def settled : State := under .settled roster quiet

/-- LIMP under the same entries. -/
def limp : State :=
  let s := under .limp { roster with status := .limp, jointGrade := .g1, jointPayload := .p16 } quiet
  { s with comp := { s.comp with retryDue := some 500 } }

/-- In OFFER with two entries in the table. -/
def offering : State :=
  { quiet with comp := { quiet.comp with
      state := .offer, holdDue := none, cadenceDue := some 320000
      table := quiet.comp.table ++ [entry4101] } }

/-- In CONFIRM with a pending roster that 4101 has not confirmed. -/
def confirming : State :=
  { offering with comp := { offering.comp with state := .confirm, pendingRoster := some roster } }

/-- The state with a chain unit's decoder changed. -/
def withDec (e : End) (f : Decoder → Decoder) (s : State) : State :=
  s.setChain e { s.chain e with dec := f (s.chain e).dec }

/-- A transmit entry of one byte to ALL. -/
def message (ticket : Nat) : TxEntry :=
  { ticket := ticket, dest := .all, urgent := false, expiry := none, payload := [7], attempts := 0
    inFlight := false, lapsed := false, renameOwed := false }

/-- SETTLED with some entries in the transmit queue. -/
def queued (q : List TxEntry) : State :=
  { settled with cargo := { settled.cargo with queue := q, lastTicket := 3 } }

/-- In transmission of a confirm of class 1, identity 4102. -/
def confirmTx : Tx :=
  ⟨{ cls := 1, source := 4102, grade := .g1, body := (CompFrame.confirm 1 0x9A3C51E7 1).body },
    .comp (.confirm 1 0x9A3C51E7 1)⟩

/-- In transmission of the entry of ticket 3. -/
def cargoTx : Tx :=
  ⟨{ cls := 6, source := 4102, grade := .g2, body := cargoBody roster (message 3) }, .cargo 3 none⟩

/-- The state in transmission of an own frame. -/
def sending (t : Tx) (s : State) : State :=
  { s with bus := { s.bus with ctrl := .transmitting, idle := false, idleDue := none, tx := some t } }

/-- The state with a reception at its start bit. -/
def receiving (s : State) : State :=
  { s with bus := { s.bus with
    ctrl := .receiving, idle := false, idleDue := some 352, rx := some .afterStart } }

/-! ## Well-formed operands -/

theorem test_ill_formed_period : wellFormed (.completedPeriod .a 2880 2880) = false := by decide
theorem test_ill_formed_high_time : wellFormed (.completedPeriod .a 2880 0) = false := by decide
theorem test_ill_formed_high_part : wellFormed (.completedPeriod .a 9000 8000) = false := by decide
theorem test_ill_formed_low_part : wellFormed (.completedPeriod .a 12500 500) = false := by decide
theorem test_ill_formed_frame : wellFormed (.frameReceived []) = false := by decide
theorem test_ill_formed_arbitration : wellFormed (.lostArbitration 44) = false := by decide
theorem test_ill_formed_recessive : wellFormed (.dominantReadRecessive 44) = false := by decide
theorem test_ill_formed_strike_early : wellFormed (.strike 35) = false := by decide
theorem test_ill_formed_strike_late : wellFormed (.strike 1484) = false := by decide
theorem test_ill_formed_member : wellFormed (.memberLost 0) = false := by decide
theorem test_ill_formed_ticket_zero : wellFormed (.lifetimeExpiry 0) = false := by decide
theorem test_ill_formed_ticket_high : wellFormed (.lifetimeExpiry 256) = false := by decide
theorem test_well_formed :
    (wellFormed (.completedPeriod .b 3573 974) && wellFormed (.lostArbitration 43) &&
      wellFormed (.completedPeriod .a 19998 7999) && wellFormed (.dominantReadRecessive 0) &&
      wellFormed (.strike 36) && wellFormed (.lifetimeExpiry 255)) = true := by decide

/-! ## The spec's worked examples -/

/-- Section 1.8.1. -/
theorem test_decode_slow_sender :
    quarterSteps .b 3573 974 = 24 ∧ candidateOf 3573 974 = some ⟨.b, 5⟩ := by decide
/-- Section 1.8.2. -/
theorem test_decode_distorted : quarterSteps .b 3573 1050 = 26 ∧ candidateOf 3573 1050 = none := by decide
/-- Section 1.8.3. -/
theorem test_decode_top_code :
    quarterSteps .a 2822 2665 = 68 ∧ candidateOf 2822 2665 = some ⟨.a, 16⟩ := by decide
/-- Section 1.8.4. -/
theorem test_decode_outside : candidateOf 2692 1000 = none := by decide

/-- Section 1.8.5, from OPEN to the release withdrawn: the states, runs and unclear runs of end A. -/
theorem test_decoder_sequence :
    let p (d : Decoder) : Decoder := d.takePeriod 3 3520 480 3520
    let q (d : Decoder) : Decoder := d.takePeriod 3 3520 640 3520
    let bad (d : Decoder) : Decoder := d.takePeriod 3 3520 560 3520
    let d0 := Decoder.fresh 0
    let held2 := p (p (p (bad (p (p d0)))))
    let held3 := q (q (q held2))
    let back := q (held3.part 8000)
    (p d0).state = .acquiring ∧ (p d0).run = 1 ∧ (bad (p (p d0))).run = 0 ∧
      (bad (p (p d0))).unclear = 1 ∧ held2.state = .held ∧ held2.held = some ⟨.b, 2⟩ ∧
      held2.run = 3 ∧ (q (q held2)).held = some ⟨.b, 2⟩ ∧ held3.held = some ⟨.b, 3⟩ ∧
      (held3.part 8000).state = .parting ∧ (held3.part 8000).cand = none ∧
      back.state = .acquiring ∧ back.held = some ⟨.b, 3⟩ ∧ (q (q back)).state = .held := by
  decide +kernel

/-- R109's example. -/
theorem test_consist_tag : roster.tag = 0xCBDB := by decide

/-- The start bit and class bits of an offer's frame are dominant, dominant, recessive, dominant: class 2
(R27, R30), and a class 1 frame carries class bits 001. -/
theorem test_first_wire_bits :
    (Frame.wireBits { cls := 2, source := 4102, grade := .g1, body := [] }).take 4 =
      [false, false, true, false] ∧
    confirmTx.frame.wireBits.take 4 = [false, false, false, true] := by decide +kernel

/-- Two frames of one class from 4101 and 4102 first differ at unstuffed bit 34 (R28, R32): 4101 ends in 0101
and 4102 in 0110, so the lower identity is dominant there and wins. -/
theorem test_lower_identity_wins :
    let a := Frame.contentBits { cls := 2, source := 4101, grade := .g1, body := [] }
    let b := Frame.contentBits { cls := 2, source := 4102, grade := .g1, body := [] }
    a.take 33 = b.take 33 ∧ a[33]? = some false ∧ b[33]? = some true := by decide +kernel

/-- A frame read back from its wire bits by a receiver after the start bit (R27 to R30, R36). -/
theorem test_frame_round_trip :
    Rx.afterStart.feed 0xF (cargoTx.frame.wireBits.drop 1) = .complete cargoTx.frame := by decide +kernel

/-- The CRC of R29 over the nine bytes 31 to 39 (hexadecimal) is 29B1, the known check value of this generator
with a register of all ones and no inversion. -/
theorem test_crc_check_value :
    crc16 (bitsOfBytes [0x31, 0x32, 0x33, 0x34, 0x35, 0x36, 0x37, 0x38, 0x39]) 0xFFFF#16 = 0x29B1#16 := by
  decide +kernel

/-- Frame classes 0, 5 and 7 are format errors at the third class bit (R30). -/
theorem test_bad_classes :
    Rx.afterStart.feed 0xF [false, false, false] = .error .format ∧
      Rx.afterStart.feed 0xF [true, false, true] = .error .format ∧
      Rx.afterStart.feed 0xF [true, true, true] = .error .format := by decide

/-- R48's boundaries. -/
theorem test_epoch_judgement :
    judgeEpoch 5 5 = .equal ∧ judgeEpoch 0 0xFFFF = .newer ∧ judgeEpoch 32767 0 = .newer ∧
      judgeEpoch 32768 0 = .opposite ∧ judgeEpoch 32769 0 = .older ∧ judgeEpoch 4 5 = .older := by decide

/-- R127: after 254, with 255, 1 and 3 held, the next ticket is 2. -/
theorem test_next_ticket : nextTicket 254 [255, 1, 3] = 2 ∧ nextTicket 255 [] = 1 := by decide

/-- The ceiling limit of some permitted sets (R114). -/
theorem test_ceiling_limit :
    ceilingLimit 0xF = .g4 ∧ ceilingLimit 0x1 = .g1 ∧ ceilingLimit 0xB = .g2 ∧ ceilingLimit 0xD = .g1 := by
  decide

/-- K as taken from its field (R11). -/
theorem test_confirmation_count :
    kOfField 0 = 3 ∧ kOfField 1 = 2 ∧ kOfField 2 = 2 ∧ kOfField 8 = 8 ∧ kOfField 9 = 8 := by decide

/-- The status byte of a ready answer in RUNNING with INT pending (R150). -/
theorem test_status_byte :
    State.statusByte { quiet with port := { quiet.port with
      answerReady := true, flags := 1, mask := 1 } } = 0xD0 := by decide +kernel

/-- Transactions by R149: the bits after the code are the parameters, however many make no whole byte at the end; a
code of no command and a transaction too short for a code are status reads. -/
theorem test_transactions :
    let mosi (bytes : List Byte) (tail : List Bool) := bitsOfBytes bytes ++ tail
    decodeTransaction (mosi [0x31, 9] []) = some (.withdraw (.csnRises (bitsOfBytes [9]))) ∧
      decodeTransaction (mosi [0x31, 9] [true, false, true]) =
        some (.withdraw (.csnRises (bitsOfBytes [9] ++ [true, false, true]))) ∧
      decodeTransaction (mosi [0x00] []) = none ∧ decodeTransaction [] = none ∧
      transactionEvents (mosi [0x41, 0] []) = [.readState .csnFalls, .readState (.csnRises (bitsOfBytes [0]))] ∧
      transactionEvents (mosi [0x77, 0, 0] []) = [.readAnswer .csnFalls, .readAnswer (.statusRead 24)] ∧
      transactionEvents ((mosi [0x41] []).take 7) = [.readAnswer .csnFalls, .readAnswer (.statusRead 7)] := by decide

/-- Most significant bit first (R149): 31 hexadecimal on MOSI, and the whole bytes of 19 bits. -/
theorem test_bit_order :
    bitsOfBytes [0x31] = [false, false, true, true, false, false, false, true] ∧
      wholeBytes ([false, false, true, true, false, false, false, true, true, false, false, false, false, false, false,
        false, true, true, true]) = [0x31, 0x80] := by decide

/-- An offer's body by the tables of section 10.2.1. -/
theorem test_offer_body :
    (CompFrame.offer (offer 0x0102 ⟨.openEnd, 0, none⟩ ⟨.held, 3, some .b⟩)).body =
      [0x01, 0x02, 0x00, 0x00, 0x01, 0x43, 0x14] := by decide

/-- The table gives no bits: no word spells a command. -/
theorem test_no_word_spells : decodeTableWord 8 0x11 = none ∧
    State.withFetchWord State.reset 8 0x11 = State.reset := by decide

/-! ## Witnesses: the local port -/

/-- The answer left, with the flags as they stand. -/
def answers (c : Instr) (s : State) (a : List Byte) : Bool := ends c s fun t => t.port.answer = some a

theorem test_StepTakesFrontCommand :
    State.reset.pending = [] ∧
      (match step State.reset with
       | .next t => t = { State.reset with now := 1 }
       | .fault _ => false
       | .refused _ => false) = true ∧
      (match step { State.reset with port := { Port.reset with inReset := true } } with
       | .next t => t.now = 0
       | .fault _ => false
       | .refused _ => false) = true := by decide

theorem test_Configure_accepted :
    (ready State.reset).ready ∧ (ready State.reset).port.part = .unconfigured ∧
      ((0x00 : Byte) ++ (0x00 : Byte) ++ (0x10 : Byte) ++ (0x06 : Byte) : BitVec 32) ≠ 0#32 ∧
      PayloadMax.p64.code = (2 : Byte).toNat ∧ CabEnds.onlyA.code = (1 : Byte).toNat ∧
      ends (.configure (.csnRises (bitsOfBytes [0x00, 0x00, 0x10, 0x06, 0x0F, 2, 0, 1, 0xFF, 0xFF]))) (ready State.reset) (fun t =>
        t.port.image = some image && t.port.mask = 0x7FFF && t.grade.limit = .g4 &&
          t.grade.ceiling = .g4 && t.port.answer = some [0]) = true := by
  refine ⟨⟨by decide, by decide⟩, by decide, by decide, by decide, by decide, by decide⟩

theorem test_Configure_refused :
    answers (.configure (.csnRises (bitsOfBytes [0, 0, 0x10, 6, 0x0F, 2, 0, 1, 0xFF]))) (ready State.reset) [2] = true ∧
      answers (.configure (.csnRises (bitsOfBytes [0, 0, 0, 0, 0x0F, 2, 0, 1, 0xFF, 0xFF]))) (ready State.reset) [2] = true ∧
      answers (.configure (.csnRises (bitsOfBytes [0, 0, 0x10, 6, 0x0E, 2, 0, 1, 0xFF, 0xFF]))) (ready State.reset) [2] = true ∧
      answers (.configure (.csnRises (bitsOfBytes [0, 0, 0x10, 6, 0x0F, 4, 0, 1, 0xFF, 0xFF]))) (ready State.reset) [2] = true ∧
      answers (.configure (.csnRises (bitsOfBytes [0, 0, 0x10, 6, 0x0F, 3, 0, 4, 0xFF, 0xFF]))) (ready State.reset) [2] = true := by decide

theorem test_Start :
    configured.port.busy = false ∧ configured.port.part = .unconfigured ∧
      configured.port.image = some image ∧ configured.comp.state = .idle ∧
      ends .start configured (fun t =>
        t.port.part = .running && t.comp.state = .quiet && t.comp.epoch = 1 && t.comp.reason = .start &&
          t.comp.holdDue = some 320000 && t.comp.deadlineDue = some 8000000 &&
          t.bus.ctrl = .listening && t.bus.idleDue = some 352 && t.grade.windowDue = some 4000000 &&
          t.drivePin .a && t.drivePin .b) = true := by decide +kernel

theorem test_Start_released :
    ends .start { configured with chainA := .fresh true } (fun t =>
      t.port.flags = 0x000C && t.comp.reason = .parting && t.comp.epoch = 1 &&
        t.chainA.drv.periodFrom = none && t.chainB.drv.periodFrom = some 0 &&
        t.report .a = ⟨.parting, 0, none⟩) = true := by decide +kernel

theorem test_Restart :
    settled.port.csn.isSome ∧ settled.port.busy = false ∧ settled.port.part ≠ .unconfigured ∧
      ends .restart settled (fun t =>
        t.port.part = .running && t.port.flags = 0x2000 && t.comp.state = .quiet && t.comp.epoch = 2 &&
          t.comp.current = none && t.comp.watch = [] && t.bus.cargoGrade = .g1 &&
          t.bus.idleDue = some 352 && t.chainA = settled.chainA) = true := by decide +kernel

theorem test_SetCab :
    quiet.port.part = .running ∧ quiet.port.busy = false ∧ CabSetting.activeA.code = (1 : Byte).toNat ∧
      quiet.cabEnds = .onlyA ∧ CabSetting.activeA ≠ quiet.port.cab ∧ quiet.comp.state = .quiet ∧
      ends (.setCab (.csnRises (bitsOfBytes [1]))) quiet (fun t => t.port.cab = .activeA && t.comp.reason = .cab &&
        t.comp.epoch = 2 && t.comp.table.map (fun x => x.offer.cab) = [.activeA]) = true ∧
      leaves (.setCab (.csnRises (bitsOfBytes [0]))) quiet (quiet.answered (bitsOfBytes [0]) [0]) = true := by decide +kernel

theorem test_SetCab_refused :
    answers (.setCab (.csnRises [])) quiet [2] = true ∧ answers (.setCab (.csnRises (bitsOfBytes [3]))) quiet [2] = true ∧
      answers (.setCab (.csnRises (bitsOfBytes [2]))) quiet [2] = true := by decide +kernel

/-- The items of a sound decoder, as a test. -/
def decoderTest (k : Nat) (d : Decoder) : Bool :=
  let ok (c : Option Candidate) : Bool := c.all fun x => 1 ≤ x.code && x.code ≤ 16
  ok d.held && ok d.cand && d.run ≤ k && d.unclear ≤ 16 && d.fault.isSome = (d.state = .fault) &&
    (d.state ≠ .held || d.held.isSome) &&
    (d.held = none || !(d.state = .openLine || d.state = .fault || d.state = .isolated)) &&
    d.measure.all (fun m => m.rise = d.levelFrom && d.state ≠ .isolated) &&
    (d.highFrom = none || (d.state = .parting && d.measure = none))

theorem decoderOk_of_test {k : Nat} {d : Decoder} (h : decoderTest k d = true) : DecoderOk k d := by
  simp only [decoderTest, Bool.and_eq_true, Option.all_eq_true, decide_eq_true_eq, Bool.or_eq_true,
    Bool.not_eq_true', Bool.or_eq_false_iff, decide_eq_false_iff_not] at h
  obtain ⟨⟨⟨⟨⟨⟨⟨⟨h1, h2⟩, h3⟩, h4⟩, h5⟩, h6⟩, h7⟩, h8⟩, h9⟩ := h
  refine ⟨h1, h2, h3, h4, ?_, ?_, ?_, h8, ?_⟩
  · rw [h5]
  · intro hs; exact h6.resolve_left (fun h => h hs)
  · rintro (hs | hs | hs) <;> rcases h7 with h | h <;> simp_all
  · intro hs; rcases h9 with h | h
    · simp [h] at hs
    · exact h

/-- The items of a sound chain unit, as a test. -/
def chainTest (s : State) (e : End) : Bool :=
  let u := s.chain e
  let code (c : Nat) : Bool := 1 ≤ c && c ≤ 16
  decoderTest s.k u.dec && code u.drv.pending && code u.drv.loaded &&
    u.drv.periodFrom.isSome = (s.driveHold e).isNone &&
    u.drv.pending = min 16 (1 + (s.report e.other).count) &&
    u.drv.saturated = decide ((s.report e.other).count = 16) &&
    (s.port.part ≠ .unconfigured || (u.dec.state = .openLine && u.dec.run = 0))

theorem chains_of_test {s : State} (ha : chainTest s .a = true) (hb : chainTest s .b = true) :
    Chains s := by
  intro e
  have h : chainTest s e = true := by cases e <;> assumption
  simp only [chainTest, Bool.and_eq_true, decide_eq_true_eq, Bool.or_eq_true] at h
  obtain ⟨⟨⟨⟨⟨⟨h1, h2⟩, h3⟩, h4⟩, h5⟩, h6⟩, h7⟩ := h
  exact ⟨decoderOk_of_test h1, h2, h3, h4, h5, h6, fun hu => h7.resolve_left (fun h => h hu)⟩

/-- Chain units right after START are sound. -/
theorem test_chains : Chains quiet := chains_of_test (by decide +kernel) (by decide +kernel)

theorem test_Isolate_set :
    quiet.port.busy = false ∧ quiet.port.part ≠ .unconfigured ∧ (quiet.chain .b).dec.state ≠ .isolated ∧
      ends (.isolate (.csnRises (bitsOfBytes [1, 1]))) quiet (fun t =>
        (t.chain .b).dec.state = .isolated && t.drivePin .b = false &&
          t.chainB.drv.periodFrom = none && t.report .b = ⟨.isolated, 0, none⟩ &&
          t.chainA.drv.pending = 1 && t.port.flags = 4) = true ∧
      leaves (.isolate (.csnRises (bitsOfBytes [1, 0]))) quiet (quiet.answered (bitsOfBytes [1, 0]) [0]) = true ∧
      leaves (.isolate (.csnRises (bitsOfBytes [0, 2]))) quiet (quiet.answered (bitsOfBytes [0, 2]) [2]) = true ∧
      leaves (.isolate (.csnRises (bitsOfBytes [1]))) quiet (quiet.answered (bitsOfBytes [1]) [2]) = true ∧
      leaves (.isolate (.csnRises (bitsOfBytes [2, 1]))) quiet (quiet.answered (bitsOfBytes [2, 1]) [2]) = true := by
  decide +kernel

theorem test_Isolate_lifted :
    let s := ready (after (.isolate (.csnRises (bitsOfBytes [0, 1]))) quiet)
    Chains s ∧ s.port.part ≠ .unconfigured ∧ (s.chain .a).dec.state = .isolated ∧
      ends (.isolate (.csnRises (bitsOfBytes [0, 0]))) s (fun t =>
        (t.chain .a).dec.state = .openLine && t.drivePin .a && t.report .a = ⟨.openEnd, 0, none⟩) = true ∧
      leaves (.isolate (.csnRises (bitsOfBytes [0, 1]))) s (s.answered (bitsOfBytes [0, 1]) [0]) = true := by
  refine ⟨chains_of_test (by decide +kernel) (by decide +kernel), ?_⟩
  decide +kernel

theorem test_Recompose :
    quiet.port.part = .running ∧
      ends .recompose quiet (fun t => t.comp.reason = .command && t.comp.epoch = 2 &&
        t.roundKind = .foreground) = true ∧
      ends .recompose limp (fun t => t.comp.epoch = 2 && t.roundKind = .background) = true ∧
      configured.port.part ≠ .running ∧ answers .recompose configured [1] = true := by decide +kernel

theorem test_Submit :
    let s := queued [message 3]
    s.port.busy = false ∧ s.port.part = .running ∧
      s.submitDest 0 ((0 : Byte) ++ (0 : Byte) ++ (0 : Byte) ++ (2 : Byte)) = some (.position 2 true) ∧
      s.submitMax = 32 ∧ s.cargo.queue.length < 24 ∧
      ends (.submit (.csnRises (bitsOfBytes [0, 0, 0, 0, 2, 1, 5, 2, 0xAA, 0xBB]))) s (fun t =>
        t.port.answer = some [0, 4] && t.cargo.lastTicket = 4 &&
          t.cargo.queue = [message 3,
            { ticket := 4, dest := .position 2 true, urgent := true, expiry := some 200000
              payload := [0xAA, 0xBB], attempts := 0, inFlight := false, lapsed := false
              renameOwed := false }]) = true := by decide +kernel

theorem test_Submit_refused :
    answers (.submit (.csnRises (bitsOfBytes [4, 0, 0, 0, 0, 0, 0, 2, 7]))) settled [2] = true ∧
      answers (.submit (.csnRises (bitsOfBytes [0, 0, 0, 0, 1, 0, 0, 1, 7]))) settled [2] = true ∧
      answers (.submit (.csnRises (bitsOfBytes [0, 0, 0, 0, 17, 0, 0, 1, 7]))) settled [2] = true ∧
      answers (.submit (.csnRises (bitsOfBytes [0, 0, 0, 0, 0, 0, 0, 1, 7]))) settled [2] = true ∧
      answers (.submit (.csnRises (bitsOfBytes [1, 0, 0, 0x10, 6, 0, 0, 1, 7]))) settled [2] = true ∧
      answers (.submit (.csnRises (bitsOfBytes [5, 0, 0, 0, 0, 0, 0, 1, 7]))) settled [2] = true ∧
      answers (.submit (.csnRises (bitsOfBytes [4, 0, 0, 0, 0, 2, 0, 1, 7]))) settled [2] = true ∧
      answers (.submit (.csnRises (bitsOfBytes [4, 0, 0, 0, 0, 0, 0, 0]))) settled [7] = true ∧
      answers (.submit (.csnRises (bitsOfBytes ([4, 0, 0, 0, 0, 0, 0, 33] ++ List.replicate 33 7)))) settled [7] = true ∧
      answers (.submit (.csnRises (bitsOfBytes [4, 0, 0, 0, 0, 0, 0, 1, 7]))) (queued ((List.range 24).map fun i => message (i + 4)))
        [3] = true := by decide +kernel

theorem test_Submit_destinations :
    settled.submitDest 0 16 = some (.position 16 true) ∧ quiet.submitDest 0 1 = some (.position 1 false) ∧
      settled.submitDest 1 4101 = some (.identity 4101) ∧ settled.submitDest 1 0 = none ∧
      settled.submitDest 2 9 = some .leading ∧ settled.submitDest 3 9 = some .trailing ∧
      settled.submitDest 4 9 = some .all ∧ settled.submitDest 5 9 = none := by decide +kernel

/-- With 24 tickets held, the 25th step finds the next. -/
theorem test_NextTicket :
    ((List.range 24).map fun i => i + 1).length ≤ 24 ∧
      nextTicket 255 ((List.range 24).map fun i => i + 1) = 25 ∧ (255 + 24) % 255 + 1 = 25 := by
  decide +kernel

theorem test_Withdraw :
    let s := queued [message 3, { message 9 with inFlight := true }]
    (s.cargo.queue.map TxEntry.ticket).Nodup ∧ s.cargo.outcomes.length < 32 ∧
      ends (.withdraw (.csnRises (bitsOfBytes [3]))) s (fun t => t.port.answer = some [0] && t.port.flags = 0x40 &&
        t.cargo.queue.map TxEntry.ticket = [9] && t.cargo.outcomes = [⟨3, .withdrawn, none⟩]) = true ∧
      leaves (.withdraw (.csnRises (bitsOfBytes [9]))) s (s.answered (bitsOfBytes [9]) [6]) = true ∧
      leaves (.withdraw (.csnRises (bitsOfBytes [4]))) s (s.answered (bitsOfBytes [4]) [5]) = true := by decide +kernel

theorem test_Withdraw_outcomes_full :
    let s := { queued [message 3] with cargo := { (queued [message 3]).cargo with
      outcomes := List.replicate 32 ⟨1, .sent, none⟩ } }
    s.cargo.outcomes.length = 32 ∧
      ends (.withdraw (.csnRises (bitsOfBytes [3]))) s (fun t => t.cargo.queue = [] && t.cargo.outcomeLoss = 1 &&
        t.cargo.outcomes.length = 32 && t.port.flags = 0x1000) = true := by decide +kernel

/-- An arrival of two bytes from 4101. -/
def arrival : RxEntry :=
  { source := 4101, sourcePos := 2, mode := .position, renamed := true, grade := .g2, payload := [1, 2] }

theorem test_Take :
    let s := { settled with cargo := { settled.cargo with received := [arrival] } }
    ends .take s (fun t => t.cargo.received = [] &&
      t.port.answer = some [0, 0, 0, 0x10, 0x05, 2, 0, 0x81, 2, 1, 2]) = true ∧
      leaves .take settled (settled.answered [] [4]) = true ∧
      leaves .take configured (configured.answered [] [1]) = true := by decide +kernel

theorem test_ReadOutcomes :
    let s := { settled with cargo := { settled.cargo with
      outcomes := ⟨7, .sent, some 5⟩ :: List.replicate 8 ⟨1, .flushed, none⟩ } }
    ends .readOutcomes s (fun t => t.cargo.outcomes = [⟨1, .flushed, none⟩] &&
      (t.port.answer.getD []).take 8 = [0, 8, 7, 0, 5, 1, 7, 0]) = true ∧
      leaves .readOutcomes settled (settled.answered [] [4]) = true ∧
      leaves .readOutcomes configured (configured.answered [] [1]) = true := by decide +kernel

theorem test_ReadRoster :
    answers (.readRoster (.csnRises (bitsOfBytes [0]))) settled
        [0, 0, 1, 0xCB, 0xDB, 0x9A, 0x3C, 0x51, 0xE7, 2, 1, 0x20, 0x11,
         0xB9, 0, 0, 0x10, 6, 0xD4, 0, 0, 0x10, 5] = true ∧
      answers (.readRoster (.csnRises (bitsOfBytes [1]))) settled [4] = true ∧ answers (.readRoster (.csnRises (bitsOfBytes [2]))) settled [2] = true := by
  decide +kernel

/-- The payload maximum of 64 alone, and with a joint payload of 32 and of 128. -/
theorem test_Submit_limit :
    quiet.port.image = some image ∧ quiet.comp.current = none ∧ quiet.submitMax = 64 ∧ settled.submitMax = 32 ∧
      (under .settled { roster with jointPayload := .p128 } quiet).submitMax = 64 := by decide +kernel

/-- Every byte of the record of a station in a background round (section 10.3.3). -/
theorem test_ReadState_layout :
    let s : State := { limp with
      port := { limp.port with mask := 0x0301, cab := .activeA }
      comp := { limp.comp with state := .offer, epoch := 0x0102, reason := .newerEpoch, failed := 9 }
      chainA := { limp.chainA with release := true, drv := { limp.chainA.drv with loaded := 3, saturated := true } }
      chainB := { limp.chainB with dec := { limp.chainB.dec with state := .held, held := some ⟨.b, 7⟩ } }
      grade := { limp.grade with ceiling := .g2 }
      bus := { limp.bus with strikes := 5, cargoGrade := .g3, counters :=
        { format := 1, crc := 2, stuff := 3, truncation := 4, gradeSkip := 5, stranger := 6, stale := 7, foreign := 8
          overrun := 0x0910 } }
      cargo := { limp.cargo with queue := [message 1, message 2], lastTicket := 2, outcomeLoss := 0x0A0B } }
    s.record = [1, 1, 1, 0, 0, 0x10, 6, 0x0F, 2, 3, 1, 0, 3, 1, 2, 2, 1, 2, 13, 9, 0, 0, 2, 0x80, 3, 1, 2,
      2, 0, 1, 0x47, 1, 1, 0, 1, 5, 2, 1, 3, 2, 0, 0, 2,
      0, 1, 0, 2, 0, 3, 0, 4, 0, 5, 0, 6, 0, 7, 0, 8, 9, 0x10, 0x0A, 0x0B] := by decide +kernel

theorem test_ReadState :
    ends .readState settled (fun t => (t.port.answer.getD []).length = 64 &&
      (t.port.answer.getD []).take 11 = [0, 1, 0, 1, 0, 0, 0x10, 6, 0x0F, 2, 3]) = true := by
  decide +kernel

theorem test_ReadEvents :
    let s := { settled with port := { settled.port with flags := 0x4001 } }
    s.port.busy = false ∧ s.intn = true ∧
      ends .readEvents s (fun t => t.port.answer = some [0, 0x40, 0x01] && t.port.flags = 0) = true := by
  decide +kernel

/-- Falls of CSN in and out of reset, a rise without a transaction, status reads with and without a whole status
byte, and READ ANSWER with an answer ready, without one and while a command executes. -/
theorem test_Transactions :
    let s := { settled with port := { settled.port with csn := none, answer := some [4], answerReady := true } }
    let low := after (.readAnswer .csnFalls) s
    let inReset := { State.reset with port := { Port.reset with inReset := true } }
    let out (c : Instr) (s : State) (bits : List Bool) : Bool := ends c s fun t => t.port.miso = bits
    let behind (bytes : List Byte) : Transfer := .csnRises (bitsOfBytes bytes)
    portTransfer (.withdraw .csnFalls) = some .csnFalls ∧ s.port.inReset = false ∧
      ends (.withdraw .csnFalls) s (fun t => t.port.csn = some 0x90 && t.port.miso = []) = true ∧
      leaves (.start .csnFalls) inReset inReset = true ∧
      s.port.csn = none ∧ leaves (.withdraw (behind [3])) s s = true ∧
      low.port.csn = some 0x90 ∧
      ends (.readState (.statusRead 24)) low (fun t => t.port.miso = bitsOfBytes [0x90, 0, 0] && t.port.csn = none &&
        t.port.answer = some [4]) = true ∧
      out (.readState (.statusRead 3)) low [true, false, false] = true ∧
      out (.readAnswer (behind [1, 2, 3])) low (bitsOfBytes [0x90, 4, 0, 0]) = true ∧
      out (.readAnswer (.csnRises [true, true, true])) low (bitsOfBytes [0x90] ++ [false, false, false]) = true ∧
      out (.readAnswer (behind [1, 2])) (ready State.reset) (bitsOfBytes [0x10, 0xFF, 0]) = true ∧
      out (.readAnswer (.csnRises [])) { low with port := { low.port with busy := true } }
        (bitsOfBytes [0x90]) = true := by decide +kernel

/-- A flag set between the fall of CSN and its rise shows in the next status byte only (R150). -/
theorem test_status_captured :
    let s := after (.readState .csnFalls) { settled with port := { settled.port with csn := none } }
    ends (.readState (.csnRises [])) (after (.releaseAsserted .a) s) (fun t =>
      t.port.miso = bitsOfBytes [0x10] && t.intn && t.port.csn = none) = true := by decide +kernel

theorem test_Transactions_busy :
    let s := { settled with port := { settled.port with busy := true } }
    commandBits (.withdraw (.csnRises (bitsOfBytes [3]))) = some (bitsOfBytes [3]) ∧ s.port.csn = some 0x10 ∧
      ends (.withdraw (.csnRises (bitsOfBytes [3]))) s (fun t => t.port.overrun &&
        t.port.miso = bitsOfBytes [0x10, 0] && t.port.csn = none && t.port.answer = s.port.answer) = true ∧
      ends (.commandOverrun (.csnRises (bitsOfBytes [1, 2]))) s (fun t => t.port.overrun &&
        t.port.miso = bitsOfBytes [0x10, 0, 0]) = true ∧
      ends .answerReady s (fun t => t.port.answerReady && !t.port.busy) = true ∧
      ends (.readAnswer (.csnRises (bitsOfBytes [1]))) s (fun t => t.port.overrun = s.port.overrun) = true := by
  decide +kernel

theorem test_Refusal :
    let c : Instr := .submit (.csnRises (bitsOfBytes [9]))
    commandBits c = some (bitsOfBytes [9]) ∧ settled.port.busy = false ∧ settled.port.csn.isSome ∧
      leaves c settled (settled.answered (bitsOfBytes [9]) [2]) = true := by decide +kernel

theorem test_Unavailable :
    availableIn .take .unconfigured = false ∧ leaves .take configured (configured.answered [] [1]) = true ∧
      availableIn .start .running = false ∧ leaves .start settled (settled.answered [] [1]) = true ∧
      (ready State.reset).port.image = none ∧
      leaves .start (ready State.reset) ((ready State.reset).answered [] [1]) = true := by
  decide +kernel

/-- RESETN falls in a transaction, a fall of CSN begins none meanwhile, and RESETN rises (R165). -/
theorem test_HardwareReset :
    let s := after (.hardwareReset .resetnFalls) settled
    settled.drivesMiso = true ∧ s.drivesMiso = false ∧ s.port.inReset = true ∧
      leaves (.readState .csnFalls) s s = true ∧
      ends (.hardwareReset .resetnRises) s (fun t => t.port.inReset = false && t.drivesMiso = false) = true ∧
      ends (.hardwareReset .powerOn) settled (fun t => t = { State.reset with pending := settled.pending })
        = true := by decide +kernel

/-! ## Witnesses: the chain lines -/

theorem test_PeriodReadAsCode :
    candidateOf 2700 300 = some ⟨.a, 1⟩ ∧ candidateOf 3060 340 = some ⟨.a, 1⟩ ∧
      candidateOf 3300 3150 = none ∧ candidateOf 3740 510 = some ⟨.b, 2⟩ ∧ candidateOf 2699 300 = none ∧
      candidateOf 3061 340 = none ∧ candidateOf 3299 450 = none ∧ candidateOf 3741 510 = none := by
  decide +kernel

theorem test_PeriodBoundary :
    let s := { quiet with chainA := { quiet.chainA with drv := { quiet.chainA.drv with pending := 4 } } }
    s.chainA.drv.periodFrom = some 0 ∧ quiet.chainB.drv.periodFrom = some 0 ∧
      ends (.periodBoundary .a) s (fun t => t.chainA.drv.loaded = 4 && t.now = 2880 &&
        t.chainA.drv.periodFrom = some 2880) = true ∧
      ends (.periodBoundary .b) quiet (fun t => t.now = 3520 && t.chainB.drv.loaded = 1) = true := by
  decide +kernel

/-- With code 4 loaded the pin of end A is high for 800 of 2880 ticks, and of end B with code 16 for 2720 of 3520. -/
theorem test_DrivePulse :
    let s (now : Ticks) : State := { quiet with
      now := now
      chainA := { quiet.chainA with drv := { quiet.chainA.drv with loaded := 4, periodFrom := some 100 } }
      chainB := { quiet.chainB with drv := { quiet.chainB.drv with loaded := 16, periodFrom := some 100 } } }
    [100, 899, 900, 2819, 2820, 2979].map (fun n => ((s n).drivePin .a, (s n).drivePin .b)) =
      [(true, true), (true, true), (false, true), (false, true), (false, false), (false, false)] := by decide +kernel

/-- SETTLED with end A's decoder in some state. -/
def sensing (f : Decoder → Decoder) : State := withDec .a f settled

/-- ACQUIRING with two equal periods, and FAULT of either reason. -/
def acquiring : State := sensing fun d => { d with state := .acquiring, cand := some ⟨.b, 2⟩, run := 2 }
def unclearFault (n : Nat) : State := sensing fun d =>
  { d with state := .fault, fault := some .unclear, unclear := n }
def stuckFault : State := sensing fun d => { d with state := .fault, fault := some .stuckHigh }

theorem test_chains_sensing : Chains settled ∧ Chains acquiring ∧ Chains (unclearFault 15) ∧
    Chains stuckFault ∧ Chains (sensing fun d => { d with unclear := 15 }) ∧ Chains configured := by
  refine ⟨?_, ?_, ?_, ?_, ?_, ?_⟩ <;> exact chains_of_test (by decide +kernel) (by decide +kernel)

/-- The longest parts that complete a period, and the shortest that do not; none completes in ISOLATED and in
UNCONFIGURED. The second period after a loss comes no earlier than its length after it (R8). -/
theorem test_CompletedPeriod_bounds :
    let lost := after (.loss .a) settled
    ends (.completedPeriod .a 19998 7999) settled (fun t => t.chainA.dec.unclear = 1 && t.now = 19998) = true ∧
      leaves (.completedPeriod .a 9000 8000) settled settled = true ∧
      leaves (.completedPeriod .a 12500 500) settled settled = true ∧
      leaves (.completedPeriod .a 3520 0) settled settled = true ∧
      leaves (.completedPeriod .a 3520 3520) settled settled = true ∧
      leaves (.completedPeriod .a 3520 480) configured configured = true ∧
      leaves (.completedPeriod .a 3520 480) (sensing fun d => { d with state := .isolated })
        (sensing fun d => { d with state := .isolated }) = true ∧
      ends (.completedPeriod .a 3520 480) lost (fun t => t.now = 15520) = true := by decide +kernel

/-- The first valid period, the K-th, and a valid period in FAULT of either reason. -/
theorem test_CompletedPeriod_valid :
    candidateOf 3520 480 = some ⟨.b, 2⟩ ∧ (quiet.chain .a).dec.state = .openLine ∧
      ends (.completedPeriod .a 3520 480) quiet (fun t => t.chainA.dec.state = .acquiring &&
        t.chainA.dec.run = 1 && t.comp.epoch = 1) = true ∧
      ends (.completedPeriod .a 3520 480) acquiring
        (fun t => t.chainA.dec.state = .held && t.report .a = ⟨.held, 2, some .b⟩ &&
          t.chainB.drv.pending = 3 && t.port.flags = 4 && t.comp.epoch = 2 && t.comp.reason = .chain)
        = true ∧
      ends (.completedPeriod .a 3520 480) (unclearFault 15)
        (fun t => t.chainA.dec.state = .fault && t.chainA.dec.run = 1) = true ∧
      ends (.completedPeriod .a 3520 480) stuckFault
        (fun t => t.chainA.dec.state = .acquiring && t.chainA.dec.fault = none) = true := by
  decide +kernel

theorem test_CompletedPeriod_unclear :
    candidateOf 2692 1000 = none ∧
      ends (.completedPeriod .a 2692 1000) (withDec .a (fun d => { d with unclear := 14 }) quiet)
        (fun t => t.chainA.dec.unclear = 15 && t.chainA.dec.state = .openLine) = true ∧
      ends (.completedPeriod .a 2692 1000) (withDec .a (fun d => { d with unclear := 15 }) quiet)
        (fun t => t.chainA.dec.unclear = 16 && t.chainA.dec.state = .fault &&
          t.chainA.dec.fault = some .unclear && t.flagSet .fault && t.flagSet .chain) = true ∧
      ends (.completedPeriod .a 2692 1000) (unclearFault 15) (fun t => t.chainA.dec.unclear = 16 &&
        t.port = (unclearFault 15).port) = true := by
  decide +kernel

/-- HELD at end B, then parting sensed, then stuck high; loss falls due 12 000 ticks after the parting. -/
theorem test_SteadyLine :
    let s := withDec .b (fun d => { d with state := .held, held := some ⟨.a, 3⟩, cand := some ⟨.a, 3⟩, run := 3 })
      { settled with chainA := { settled.chainA with drv := { settled.chainA.drv with pending := 4 } } }
    let p := after (.partingSensed .b) s
    let iso := sensing fun d => { d with state := .isolated }
    Chains s ∧ Chains p ∧
      (s.port.part ≠ .unconfigured ∧
      ends (.loss .b) s (fun t => t.chainB.dec.state = .openLine && t.report .b = ⟨.openEnd, 0, none⟩ &&
        t.now = 12000 && t.flagSet .chain) = true ∧
      ends (.partingSensed .b) s (fun t => t.report .b = ⟨.parting, 0, none⟩ && t.now = 8000 &&
        t.chainB.dec.held = some ⟨.a, 3⟩ && t.port.flags = 0x0C && t.chainB.dec.highFrom = some 0) = true ∧
      (p.chain .b).dec.state = .parting ∧ (p.chain .b).dec.highFrom = some 0 ∧
      ends (.loss .b) p (fun t => t.now = 20000) = true ∧
      ends (.stuckHigh .b) p (fun t => t.report .b = ⟨.fault, 0, none⟩ && t.flagSet .fault &&
        t.now = 12000000 && t.chainB.dec.held = none && t.chainB.dec.highFrom = none) = true ∧
      ends (.partingSensed .b) (after (.stuckHigh .b) p) (fun t => t.now = 12008000) = true ∧
      leaves (.stuckHigh .b) s s = true ∧ leaves (.loss .a) iso iso = true ∧
      leaves (.partingSensed .a) configured configured = true) := by
  refine ⟨chains_of_test (by decide +kernel) (by decide +kernel),
    chains_of_test (by decide +kernel) (by decide +kernel), ?_⟩
  decide +kernel

theorem test_ReleaseInput :
    ends (.releaseAsserted .a) settled (fun t => t.report .a = ⟨.parting, 0, none⟩ && t.drivePin .a &&
      t.port.flags = 0x0C && t.comp.reason = .parting) = true ∧
      ends (.releaseDeasserted .a) (after (.releaseAsserted .a) settled) (fun t =>
        t.report .a = ⟨.openEnd, 0, none⟩ && t.chainA.drv.periodFrom = some 0) = true ∧
      ends (.releaseAsserted .b) configured (fun t => t.report .b = configured.report .b &&
        t.drivePin .b = false && t.chainB.release) = true := by decide +kernel

/-- What an end reports with each state of its decoder, with the release input of the end low and high (R22). -/
theorem test_ReportRows :
    let v : Option Candidate := some ⟨.b, 7⟩
    let s (c : DecState) (held : Option Candidate) : State := sensing fun d => { d with state := c, held := held }
    let out (s : State) : State := { s with chainA := { s.chainA with release := true } }
    (s .held v).report .a = ⟨.held, 7, some .b⟩ ∧ (s .acquiring v).report .a = ⟨.held, 7, some .b⟩ ∧
      (s .acquiring none).report .a = ⟨.openEnd, 0, none⟩ ∧ (s .parting v).report .a = ⟨.parting, 0, none⟩ ∧
      (s .fault none).report .a = ⟨.fault, 0, none⟩ ∧ (s .isolated none).report .a = ⟨.isolated, 0, none⟩ ∧
      (out (s .held v)).report .a = ⟨.parting, 0, none⟩ ∧ (out (s .isolated none)).report .a = ⟨.isolated, 0, none⟩ ∧
      ends (.releaseDeasserted .a) (out (s .held v)) (fun t => t.report .a = ⟨.held, 7, some .b⟩) = true := by
  decide +kernel

theorem test_chains_held : Chains (withDec .a (fun d => { d with
    state := .acquiring, held := some ⟨.b, 7⟩, cand := some ⟨.b, 2⟩, run := 2 })
    { settled with chainB := { settled.chainB with drv := { settled.chainB.drv with pending := 8 } } }) :=
  chains_of_test (by decide +kernel) (by decide +kernel)

/-! ## Witnesses: the train bus -/

theorem test_ReceiverReadsWireBits : cargoTx.frame.Readable 0xF :=
  ⟨by decide, by decide, by decide, by decide⟩

/-- The cargo layout at the edges of its fields (R141, R175). -/
theorem test_CargoLayout :
    let body (mode v : Byte) (pos len : Byte) (payload : List Byte) : List Byte :=
      [1, 2, mode, 0, 0, 0, v, pos, len] ++ payload
    cargoBodyOf? (body 0 1 16 1 [7]) = some ⟨0x0102, .position 1, 16, [7]⟩ ∧
      cargoBodyOf? (body 0 16 1 1 [7]) = some ⟨0x0102, .position 16, 1, [7]⟩ ∧
      cargoBodyOf? (body 1 9 1 1 [7]) = some ⟨0x0102, .identity 9, 1, [7]⟩ ∧
      cargoBodyOf? (body 2 0 1 128 (List.replicate 128 7)) = some ⟨0x0102, .all, 1, List.replicate 128 7⟩ ∧
      cargoBodyOf? (body 0 0 1 1 [7]) = none ∧ cargoBodyOf? (body 0 17 1 1 [7]) = none ∧
      cargoBodyOf? (body 1 0 1 1 [7]) = none ∧ cargoBodyOf? (body 3 1 1 1 [7]) = none ∧
      cargoBodyOf? (body 2 0 0 1 [7]) = none ∧ cargoBodyOf? (body 2 0 17 1 [7]) = none ∧
      cargoBodyOf? (body 2 0 1 0 []) = none ∧ cargoBodyOf? (body 2 0 1 1 []) = none ∧
      cargoBodyOf? (body 2 0 1 129 (List.replicate 129 7)) = none ∧
      cargoBodyOf? ((body 2 0 1 1 []).take 8) = none := by decide +kernel

theorem test_BodiesReadBack :
    (offer 1 ⟨.openEnd, 0, none⟩ ⟨.held, 16, some .b⟩).wellFormed = true ∧
      compFrameOfBody? 1 (CompFrame.confirm 1 5 16).body = some (.confirm 1 5 16) ∧
      compFrameOfBody? 1 (CompFrame.confirm 1 5 1).body = some (.confirm 1 5 1) ∧
      compFrameOfBody? 3 (CompFrame.presence 1 5).body = some (.presence 1 5) ∧
      compFrameOfBody? 2 (CompFrame.offer (offer 1 ⟨.openEnd, 0, none⟩ ⟨.held, 16, some .b⟩)).body =
        some (.offer (offer 1 ⟨.openEnd, 0, none⟩ ⟨.held, 16, some .b⟩)) ∧
      cargoBodyOf? (cargoBody roster { message 3 with dest := .trailing }) =
        some ⟨0xCBDB, .position 2, 1, [7]⟩ := by decide +kernel

/-- Bodies that are malformed (R53, R174): a triple no end reports, a mark that the other end's count does not cause, a
position out of range, a length that is not the layout's, and a class of another frame. -/
theorem test_MalformedBodies :
    let o := offer 1 ⟨.openEnd, 0, none⟩ ⟨.held, 16, some .b⟩
    let body (o : OfferFields) := (CompFrame.offer o).body
    let bad (o : OfferFields) : Bool := o.wellFormed = false && compFrameOfBody? 2 (body o) = none
    bad { o with endA := ⟨⟨.openEnd, 1, none⟩, false⟩ } = true ∧
      bad { o with endB := ⟨⟨.held, 0, some .b⟩, false⟩ } = true ∧ bad { o with endB := ⟨⟨.held, 3, none⟩, false⟩ } = true ∧
      bad { o with endB := ⟨⟨.held, 17, some .b⟩, false⟩ } = true ∧
      bad { o with endB := ⟨⟨.held, 16, some .b⟩, true⟩ } = true ∧
      { o with endA := ⟨⟨.openEnd, 0, none⟩, true⟩ }.wellFormed = true ∧
      compFrameOfBody? 2 (body { o with endA := ⟨⟨.openEnd, 0, none⟩, true⟩ }) =
        some (.offer { o with endA := ⟨⟨.openEnd, 0, none⟩, true⟩ }) ∧
      compFrameOfBody? 2 (body o ++ [0]) = none ∧ compFrameOfBody? 2 ((body o).take 6) = none ∧
      compFrameOfBody? 3 (body o) = none ∧ compFrameOfBody? 1 (CompFrame.confirm 1 5 0).body = none ∧
      compFrameOfBody? 1 (CompFrame.confirm 1 5 17).body = none := by decide +kernel

/-- QUIET with a confirm in the slot on a bus that is not idle yet, and on one that is. -/
def slotted (idle : Bool) : State :=
  { quiet with bus := { quiet.bus with
      slot := some (.confirm 1 5 1), idle := idle, idleDue := if idle then none else some 352
      intermissionEnd := if idle then some 104 else none } }

theorem test_IdleBusSends :
    (slotted false).bus.ctrl = .listening ∧ (slotted false).bus.rx = none ∧
      ends .busIdle (slotted false) (fun t => t.bus.ctrl = .transmitting && t.bus.slot = none && t.now = 352 &&
        t.bus.tx.map (fun x => x.frame.cls) = some 1 &&
        t.bus.tx.map (fun x => x.frame.source) = some 4102) = true ∧
      ends .intermissionPassed (slotted true) (fun t => t.bus.ctrl = .transmitting && t.now = 104) = true ∧
      ends .intermissionPassed { settled with bus := { settled.bus with intermissionEnd := some 104 } }
        (fun t => t.bus.ctrl = .listening && t.bus.intermissionEnd = none && t.now = 104) = true := by
  decide +kernel

/-- SETTLED on a bus about to be idle, with a ROUTINE entry before an URGENT one. -/
theorem test_IdleSendsHeadCandidate :
    let u := queued [message 2, { message 3 with urgent := true }]
    u.bus.ctrl = .listening ∧ u.bus.slot = none ∧ u.gateOpen = true ∧ u.bus.intermissionEnd = none ∧
      ends .busIdle u (fun t => t.now = 352 &&
        t.cargo.queue.map (fun x => (x.ticket, x.inFlight)) = [(2, false), (3, true)] &&
        t.bus.tx.map (fun x => x.frame.cls) = some 4 && t.bus.tx.map (fun x => x.frame.grade) = some .g2 &&
        t.bus.tx.map (fun x => x.frame.body) =
          some [0xCB, 0xDB, 2, 0, 0, 0, 0, 1, 1, 7]) = true ∧
      ends .busIdle { queued [message 2, message 3] with now := 9 } (fun t =>
        t.cargo.queue.map (fun x => (x.ticket, x.inFlight)) = [(2, true), (3, false)]) = true := by
  decide +kernel

/-- Own LEADING and own TRAILING entries leave with UNRESOLVED at the naming, and the next entry is sent; where none
remains the bus is idle. -/
theorem test_IdleDropsOwnHead :
    let last : Roster := { roster with ownPos := 2 }
    let x (d : Dest) : TxEntry := { message 3 with dest := d }
    ends .busIdle (queued [x .leading, message 4]) (fun t => t.cargo.outcomes = [⟨3, .unresolved, none⟩] &&
        t.flight = some 4 && t.port.flags = 0x40) = true ∧
      ends .busIdle (queued [x .leading]) (fun t => t.cargo.outcomes = [⟨3, .unresolved, none⟩] &&
        t.bus.tx = none && t.bus.idle && t.bus.ctrl = .listening && t.now = 352) = true ∧
      ends .busIdle (queued [x .trailing]) (fun t => t.flight = some 3) = true ∧
      ends .busIdle (under .settled last (queued [x .trailing])) (fun t =>
        t.cargo.outcomes = [⟨3, .unresolved, none⟩] && t.bus.tx = none) = true ∧
      ends .busIdle (queued []) (fun t => t.bus.idle && t.bus.tx = none && t.now = 352) = true := by decide +kernel

theorem test_StartBitSeen :
    let s := { settled with bus := { settled.bus with idle := true, idleDue := none } }
    s.bus.rx = none ∧
      ends .startBitSeen s (fun t => t.bus.ctrl = .receiving && t.bus.rx = some .afterStart &&
        t.bus.idle = false && t.bus.idleDue = some 352) = true ∧
      ends .startBitSeen { settled with now := 100 } (fun t => t.bus.idleDue = some 452 &&
        t.bus.ctrl = .listening) = true := by decide +kernel

/-- A frame of 4101 to ALL under the roster's tag. -/
def heardFrame : Frame :=
  { cls := 6, source := 4101, grade := .g2, body := bytes16 roster.tag ++ [2, 0, 0, 0, 0, 2, byteOf 1] ++ [7] }

theorem test_FrameReceived_stored :
    let s := receiving settled
    let full := { s with cargo := { s.cargo with received := List.replicate 16 arrival } }
    permits s.permitted heardFrame.grade = true ∧ heardFrame.source ≠ s.identity ∧
      ends (.frameReceived (heardFrame.wireBits.drop 1)) s (fun t => t.bus.ctrl = .listening &&
        t.cargo.received = [⟨4101, 2, .all, false, .g2, [7]⟩] && t.port.flags = 0x20) = true ∧
      ends (.frameReceived (heardFrame.wireBits.drop 1)) full (fun t => t.cargo.received.length = 16 &&
        t.bus.counters.overrun = 1 && t.port.flags = 0x800) = true := by decide +kernel

/-- A cargo frame of 4101 under a tag, with a wire destination. -/
def heardCargo (tag : Tag) (mode v : Byte) : Frame :=
  { cls := 4, source := 4101, grade := .g2
    body := bytes16 tag ++ [mode, 0, 0, if mode = 1 then 0x10 else 0, v, 2, 1, 7] }

/-- A roster with the own station at position 3. -/
def formerly : Roster :=
  { roster with digest := 0x00010000, ownPos := 3, entries :=
      [.heard 4101 .forward .noCab .g2 .p32, .silent, .heard 4102 .forward .idle .g4 .p64] }

/-- SETTLED under the roster after the former one, in reception. -/
def settledTwice : State := { receiving settled with comp := { settled.comp with previous := some formerly } }

/-- A station in reception takes a frame of 4101 into its receive queue, with or without the renamed mark; or not;
or counts it as foreign. -/
def stores (s : State) (f : Frame) : Option Bool :=
  ((after (.frameReceived (f.wireBits.drop 1)) s).cargo.received.head?).map RxEntry.renamed
def foreignTo (s : State) (f : Frame) : Bool :=
  (after (.frameReceived (f.wireBits.drop 1)) s).bus.counters.foreign = 1

theorem test_FrameReceived_accepted :
    let s := settledTwice
    let resting := { s with bus := { s.bus with ctrl := .resting } }
    (heardCargo 0xCBDB 2 0).Readable s.permitted ∧
      (stores s (heardCargo 0xCBDB 0 1) = some false ∧ stores s (heardCargo 0xCBDB 0 2) = none ∧
      stores s (heardCargo 0xCBDB 1 6) = some false ∧ stores s (heardCargo 0xCBDB 1 7) = none ∧
      stores resting (heardCargo 0xCBDB 2 0) = some false ∧
      stores s (heardCargo 0x0001 2 0) = some false ∧ stores s (heardCargo 0x0001 1 6) = some false ∧
      stores s (heardCargo 0x0001 0 3) = some true ∧ stores s (heardCargo 0x0001 0 1) = none ∧
      stores s (heardCargo 0x0001 1 7) = none ∧ foreignTo s (heardCargo 0x0001 1 7) = false ∧
      foreignTo s (heardCargo 0x0002 2 0) = true ∧ foreignTo (receiving settled) (heardCargo 0x0001 2 0) = true ∧
      foreignTo (receiving quiet) (heardCargo 0xCBDB 2 0) = true ∧
      cargoBodyOf? (heardCargo 0xCBDB 3 0).body = none ∧ stores s (heardCargo 0xCBDB 3 0) = none) :=
  ⟨⟨by decide, by decide, by decide, by decide⟩, by decide +kernel⟩

/-- A composition frame of 4101. -/
def heardComp (f : CompFrame) : Frame := { cls := f.cls, source := 4101, grade := .g1, body := f.body }

/-- In QUIET an offer of the own epoch joins the table, a confirm of a newer epoch is adopted, an older offer is
counted as stale and an older confirm is not; a frame of identity 0 and a malformed one are discarded; a presence of
the current epoch moves its sender's heard instant. -/
theorem test_FrameReceived_composition :
    let s := receiving quiet
    let o := offer 1 ⟨.openEnd, 0, none⟩ ⟨.held, 1, some .b⟩
    let bits (f : Frame) := f.wireBits.drop 1
    (heardComp (.offer o)).Readable s.permitted ∧
      (s.comp.state ≠ .idle ∧ s.comp.state ≠ .halted ∧
      compFrameOfBody? 2 (CompFrame.offer o).body = some (.offer o) ∧
      ends (.frameReceived (bits (heardComp (.offer o)))) s (fun t => t.comp.table.length = 2) = true ∧
      ends (.frameReceived (bits (heardComp (.confirm 2 5 1)))) s (fun t => t.comp.epoch = 2) = true ∧
      judgeEpoch (0 : Epoch) 1 = .older ∧
      ends (.frameReceived (bits (heardComp (.offer { o with epoch := 0 })))) s (fun t =>
        t.bus.counters.stale = 1 && t.comp.table.length = 1) = true ∧
      ends (.frameReceived (bits (heardComp (.confirm 0 5 1)))) s (fun t =>
        t.bus.counters.stale = 0 && t.comp = s.comp) = true ∧
      ends (.frameReceived (bits { heardComp (.offer o) with source := 0 })) s (fun t => t.comp = s.comp) = true ∧
      ends (.frameReceived (bits { heardComp (.offer o) with body := [] })) s (fun t => t.comp = s.comp) = true ∧
      ends (.frameReceived (bits (heardComp (.presence 1 0x9A3C51E7))))
        { receiving settled with now := 9 } (fun t => t.comp.watch = [⟨4101, 9⟩] &&
          t.bus.idleDue = some (9 + 136)) = true) :=
  ⟨⟨by decide, by decide, by decide, by decide⟩, by decide +kernel⟩

theorem test_FrameReceived_readable : cargoTx.frame.Readable (receiving settled).permitted :=
  ⟨by decide, by decide, by decide, by decide +kernel⟩

theorem test_FrameReceived_clash :
    let s := { receiving (queued [message 3]) with now := 40000000 }
    let again := { s with bus := { s.bus with firstClash := some 0 } }
    cargoTx.frame.source = s.identity ∧
      ends (.frameReceived (cargoTx.frame.wireBits.drop 1)) s (fun t => t.bus.firstClash = some 40000000 &&
        t.port.flags = 0x100 && t.comp.reason = .clash && t.comp.epoch = 2) = true ∧
      ends (.frameReceived (cargoTx.frame.wireBits.drop 1)) again (fun t => t.port.part = .silenced &&
        t.bus.ctrl = .silenced && t.comp.state = .halted && t.cargo.queue = [] &&
        t.cargo.outcomes = [⟨3, .flushed, none⟩] && t.port.flags = 0x4040) = true ∧
      ends (.frameReceived (cargoTx.frame.wireBits.drop 1)) { again with now := 40000001 } (fun t =>
        t.port.part = .running && t.bus.firstClash = some 40000001) = true ∧
      ends (.frameReceived (cargoTx.frame.wireBits.drop 1)) { s with bus := { s.bus with ctrl := .resting } }
        (fun t => t.bus.firstClash = some 40000000 && t.bus.ctrl = .resting) = true ∧
      ends (.frameReceived (cargoTx.frame.wireBits.drop 1)) { s with bus := { s.bus with ctrl := .silenced } }
        (fun t => t.bus.firstClash = none && t.port.flags = 0) = true := by decide +kernel

/-- A receiver that has taken some unstuffed bits, with a run of some length of the last one. -/
def receiver (bits : List Bool) (run : Nat) : Rx :=
  { Rx.afterStart with taken := bits.reverse, last := bits.getLast?.getD false, run := run }

/-- The content of a class 6 frame of body grade code `g`, body length `n` and a zero body and CRC. -/
def content (cls g n : Nat) : List Bool :=
  bitsOf 3 cls ++ bitsOf 32 0x55555555 ++ bitsOf 2 g ++ bitsOf 8 n ++ List.replicate (8 * n + 16) false

/-- A receiver in QUIET takes a bit. -/
def errsAt (r : Rx) (b : Bool) (p : State → Bool) : Bool :=
  ends (.frameReceived [b, true]) { receiving quiet with bus := { (receiving quiet).bus with rx := some r } } fun t =>
    t.bus.rx = none && t.bus.ctrl = .listening && p t

theorem test_ReceiveErrors :
    let format (t : State) : Bool := t.bus.counters.format = 1 && t.grade.errors = 1
    let crc (t : State) : Bool := t.bus.counters.crc = 1 && t.grade.errors = 1
    let stuff (t : State) : Bool := t.bus.counters.stuff = 1 && t.grade.errors = 1
    let waiting : Rx := { receiver [true] 6 with waiting := true }
    let w := { receiving quiet with bus := { (receiving quiet).bus with rx := some waiting } }
    let skipped : State := { receiving quiet with
      port := { quiet.port with image := some { image with permitted := 1 } }
      bus := { (receiving quiet).bus with rx := some (receiver ((content 6 1 0).take 44) 1) } }
    let full := content 6 0 0
    (receiver [true, false] 1).contentComplete = false ∧
      errsAt (receiver [true, false] 1) true format = true ∧
      errsAt (receiver ((content 1 1 0).take 36) 1) true format = true ∧
      errsAt (receiver ((content 6 0 141).take 44) 1) true format = true ∧
      ends (.frameReceived [false]) skipped (fun t => t.bus.counters.gradeSkip = 1 && t.grade.errors = 0 &&
        t.bus.rx = none) = true ∧
      errsAt (receiver (full.take 60) 1) false crc = true ∧
      (receiver full 5).contentComplete = true ∧ (receiver full 5).crcMatches = false ∧
      errsAt (receiver full 5) true crc = true ∧
      errsAt (receiver [false, false, false, false] 5) false stuff = true ∧
      errsAt waiting false stuff = true ∧
      errsAt (receiver full 1) false format = true ∧
      w.gateOpen = false ∧ w.bus.slot = none ∧
      ends .busIdle w (fun t => t.bus.counters.truncation = 1 && t.grade.errors = 1 && t.bus.idle &&
        t.bus.rx = none) = true := by decide +kernel

/-- Wire bit 3 of a class 1 frame is recessive, and lies in the arbitration field. -/
theorem test_LostArbitration :
    let s := sending confirmTx settled
    let q := queued [{ message 3 with inFlight := true }]
    3 < confirmTx.frame.arbitrationLength ∧ confirmTx.frame.wireBits[3]? = some true ∧
      ends (.lostArbitration 3) s (fun t => t.bus.slot = some (.confirm 1 0x9A3C51E7 1) &&
        t.bus.tx = none && t.bus.ctrl = .listening && t.bus.counters.format = 1 &&
        t.bus.strikes = 0) = true ∧
      ends (.lostArbitration 1) (sending cargoTx q) (fun t => t.bus.ctrl = .receiving &&
        t.bus.idleDue = some 360 && t.cargo.queue = [message 3]) = true := by decide +kernel

/-- Lost arbitration with an entry that has lapsed, and with one that owes a rename and passes or fails its review. -/
theorem test_LostArbitration_returns :
    let q (x : TxEntry) := sending cargoTx (queued [{ x with inFlight := true }])
    let owed (d : Dest) (n : Nat) : TxEntry :=
      { message 3 with dest := d, renameOwed := true, payload := List.replicate n 7 }
    cargoTx.frame.wireBits[1]? = some true ∧ 1 < cargoTx.frame.arbitrationLength ∧
      ends (.lostArbitration 1) (q { message 3 with lapsed := true }) (fun t => t.cargo.queue = [] &&
        t.cargo.outcomes = [⟨3, .expired, none⟩] && t.port.flags = 0x40 && t.bus.ctrl = .receiving) = true ∧
      ends (.lostArbitration 1) (q (owed (.position 2 false) 1)) (fun t =>
        t.cargo.queue = [{ message 3 with dest := .position 2 true }] && t.port.flags = 0) = true ∧
      ends (.lostArbitration 1) (q (owed (.identity 4103) 1)) (fun t => t.cargo.queue = [] &&
        t.cargo.outcomes = [⟨3, .departed, none⟩] && t.port.flags = 0x40) = true := by decide +kernel

/-- At the start bit, and at bit 1, of a frame whose first two bits are dominant; with the entry back in its place,
lapsed, and reviewed under the roster. -/
theorem test_DominantReadRecessive :
    let q (x : TxEntry) := sending cargoTx (queued [{ x with inFlight := true }])
    let owed (d : Dest) (n : Nat) : TxEntry :=
      { message 3 with dest := d, renameOwed := true, payload := List.replicate n 7 }
    confirmTx.frame.wireBits.take 2 = [false, false] ∧
      ends .dominantReadRecessive (sending confirmTx settled) (fun t => t.bus.ctrl = .listening &&
        t.bus.idle && t.bus.idleDue = none && t.bus.slot = some (.confirm 1 0x9A3C51E7 1)) = true ∧
      ends (.dominantReadRecessive 1) (sending confirmTx settled) (fun t => t.bus.ctrl = .listening &&
        !t.bus.idle && t.bus.idleDue = some (8 + 352 - 32)) = true ∧
      ends .dominantReadRecessive (q (message 3)) (fun t => t.cargo.queue = [message 3] &&
        t.bus.ctrl = .listening) = true ∧
      ends .dominantReadRecessive (q { message 3 with lapsed := true }) (fun t => t.cargo.queue = [] &&
        t.cargo.outcomes = [⟨3, .expired, none⟩] && t.port.flags = 0x40) = true ∧
      ends .dominantReadRecessive (q (owed (.position 2 false) 1)) (fun t =>
        t.cargo.queue = [{ message 3 with dest := .position 2 true }]) = true ∧
      ends .dominantReadRecessive (q (owed .all 33)) (fun t => t.cargo.queue = [] &&
        t.cargo.outcomes = [⟨3, .oversize, none⟩]) = true := by decide +kernel

/-- An own dominant bit after the arbitration field. -/
theorem test_Strike :
    let k := confirmTx.frame.arbitrationLength
    let s := sending confirmTx settled
    let last := { s with bus := { s.bus with strikes := 15 } }
    confirmTx.frame.wireBits[k]? = some false ∧
      ends (.strike k) s (fun t => t.bus.strikes = 1 && t.grade.errors = 1 && t.bus.ctrl = .listening &&
        t.bus.slot = some (.confirm 1 0x9A3C51E7 1)) = true ∧
      (let n := confirmTx.frame.wireBits.length - 1
       ends (.strike n) s (fun t => t.bus.strikes = 1 && t.grade.errors = 2 &&
         t.bus.counters.format = 1 && t.bus.ctrl = .listening) = true) ∧
      ends (.strike k) last (fun t => t.bus.strikes = 16 && t.bus.ctrl = .resting &&
        t.bus.restDue = some 2000000 && t.port.flags = 0x200) = true ∧
      ends (.strike k) { last with now := 40000000, bus := { last.bus with latestRest := some 0 } } (fun t =>
        t.port.part = .silenced && t.bus.ctrl = .silenced && t.comp.state = .halted &&
          t.bus.slot = none) = true := by decide +kernel

/-- An own recessive bit after the arbitration field that reads dominant: the station receives on. -/
theorem test_Strike_receives :
    let k := cargoTx.frame.arbitrationLength
    (List.range 40).any (fun i => cargoTx.frame.wireBits[k + i]? = some true &&
      ends (.strike (k + i)) (sending { cargoTx with origin := .comp (.presence 1 5) } settled) (fun t =>
        t.bus.ctrl = .receiving && t.bus.strikes = 1 && t.bus.slot = some (.presence 1 5))) = true := by
  decide +kernel

theorem test_Strike_cargo :
    let x := { message 3 with inFlight := true }
    let k := cargoTx.frame.arbitrationLength
    (List.range 40).any (fun i => cargoTx.frame.wireBits[k + i]? = some false &&
      ends (.strike (k + i)) (sending cargoTx (queued [x])) (fun t =>
        t.cargo.queue = [{ message 3 with attempts := 1 }] && t.bus.strikes = 1) &&
      ends (.strike (k + i)) (sending cargoTx (queued [{ x with attempts := 2 }])) (fun t =>
        t.cargo.queue = [] && t.cargo.outcomes = [⟨3, .busFailure, none⟩])) = true := by decide +kernel

/-- The sixteenth strike at an own recessive bit: the station rests or stops and receives on; a cargo frame's sixteenth
strike reaches the router before the stop; a header that the flipped bit makes one of an unpermitted grade is skipped. -/
theorem test_Strike_sixteenth :
    let x := { message 3 with inFlight := true }
    let last (latest : Option Ticks) (q : List TxEntry) : State :=
      let s := sending cargoTx (queued q)
      { s with now := 40000000, bus := { s.bus with strikes := 15, latestRest := latest } }
    let k := cargoTx.frame.arbitrationLength
    let struck (level : Bool) (s : State) (p : State → Bool) : Bool := (List.range 40).any fun i =>
      cargoTx.frame.wireBits[k + i]? = some level && ends (.strike (k + i)) s p
    let grade1 : State := { last none [x] with port := { settled.port with image := some { image with permitted := 1 } } }
    struck true (last none [x]) (fun t => t.bus.ctrl = .resting && t.bus.rx.isSome && t.bus.strikes = 16 &&
        t.bus.restDue = some 42000000 && t.flagSet .resting && t.cargo.queue = [{ message 3 with attempts := 1 }]) = true ∧
      struck true (last (some 0) [{ x with attempts := 2 }, message 4]) (fun t => t.port.part = .silenced &&
        t.bus.ctrl = .silenced && t.bus.rx.isSome && t.cargo.queue = [] &&
        t.cargo.outcomes = [⟨3, .busFailure, none⟩, ⟨4, .flushed, none⟩]) = true ∧
      struck false (last (some 0) [x]) (fun t => t.comp.state = .halted && t.bus.rx = none &&
        t.cargo.outcomes = [⟨3, .flushed, none⟩]) = true ∧
      struck true grade1 (fun t => t.bus.counters.gradeSkip = 1 && t.grade.errors = 1 && t.bus.rx = none &&
        t.bus.ctrl = .resting) = true := by decide +kernel

/-- Strikes of either direction on an entry that has lapsed, on one that owes a rename, and on the third attempt. -/
theorem test_Strike_returns :
    let q (x : TxEntry) := sending cargoTx (queued [{ x with inFlight := true }])
    let k := cargoTx.frame.arbitrationLength
    let struck (level : Bool) (x : TxEntry) (p : State → Bool) : Bool := (List.range 40).any fun i =>
      cargoTx.frame.wireBits[k + i]? = some level && ends (.strike (k + i)) (q x) p
    let gone (o : OutcomeKind) (t : State) : Bool := t.cargo.queue = [] && t.cargo.outcomes = [⟨3, o, none⟩] &&
      t.bus.strikes = 1
    let lapsed := { message 3 with lapsed := true }
    let owed := { message 3 with renameOwed := true, dest := .position 2 false }
    struck false lapsed (fun t => gone .expired t && t.bus.ctrl = .listening) = true ∧
      struck true lapsed (fun t => gone .expired t && t.bus.ctrl = .receiving) = true ∧
      struck false owed (fun t => t.cargo.queue = [{ message 3 with attempts := 1, dest := .position 2 true }]) = true ∧
      struck true { owed with dest := .identity 4103 } (gone .departed) = true ∧
      struck true { lapsed with attempts := 2 } (gone .busFailure) = true ∧
      struck true (message 3) (fun t => t.cargo.queue = [{ message 3 with attempts := 1 }] &&
        t.bus.ctrl = .receiving) = true := by decide +kernel

theorem test_CleanCompletion :
    let q := queued [{ message 3 with inFlight := true }]
    let o := offer 1 ⟨.openEnd, 0, none⟩ ⟨.openEnd, 0, none⟩
    let sent (f : CompFrame) : Tx :=
      ⟨{ cls := f.cls, source := 4102, grade := .g1, body := f.body }, .comp f⟩
    ends .cleanCompletion (sending cargoTx q) (fun t => t.cargo.queue = [] &&
      t.cargo.outcomes = [⟨3, .sent, none⟩] && t.bus.ctrl = .listening &&
      t.bus.intermissionEnd = some 104 && t.bus.idleDue = some (8 + 352 - 224)) = true ∧
      ends .cleanCompletion (sending confirmTx { settled with bus := { settled.bus with strikes := 2 } })
        (fun t => t.bus.strikes = 1) = true ∧
      ends .cleanCompletion (sending (sent (.presence 1 5)) settled) (fun t => t.bus.tx = none) = true ∧
      ends .cleanCompletion (sending (sent (.offer o)) offering) (fun t => t.comp.ownSent = 1 &&
        t.comp.offerDone) = true ∧
      ends .cleanCompletion (sending (sent (.offer { o with epoch := 9 })) settled) (fun t =>
        t.comp = settled.comp) = true := by decide +kernel

theorem test_RestTimer :
    let s := { settled with bus := { settled.bus with ctrl := .resting, strikes := 16, restDue := some 2000000 } }
    ends .restTimerExpiry s (fun t => t.bus.ctrl = .listening && t.bus.strikes = 8 && t.now = 2000000) = true ∧
      ends .restTimerExpiry { s with bus := { s.bus with rx := some .afterStart } }
        (fun t => t.bus.ctrl = .receiving) = true := by decide +kernel

/-! ## Witnesses: composition -/

theorem test_QuietHoldEnd :
    quiet.comp.holdDue = some 320000 ∧ quiet.bus.idle = false ∧
      ends .quietHoldEnd quiet (fun t => t.comp.state = .offer && t.comp.cadenceDue = some 640000 &&
        t.bus.slot = some (.offer quiet.ownOffer) && t.now = 320000) = true := by decide +kernel

theorem test_CadenceTimer :
    offering.comp.cadenceDue = some 320000 ∧ offering.bus.idle = false ∧ roster.heardIds = [4102, 4101] ∧
      ends .cadenceTimer offering (fun t => t.bus.slot = some (.offer offering.ownOffer) &&
        t.comp.cadenceDue = some 640000) = true ∧
      ends .cadenceTimer confirming (fun t => t.bus.slot = some (.confirm 1 0x9A3C51E7 1) &&
        t.comp.state = .confirm &&
        t.comp.table.map HeardEntry.confirmed = [some 0x9A3C51E7, none]) = true := by decide +kernel

/-- The fields of the own offer (R49, R119, R159). -/
theorem test_OwnOffer :
    let s (setting : CabSetting) (ends : CabEnds) : State := { quiet with port := { quiet.port with
      cab := setting, image := some { image with cabEnds := ends } } }
    (s .inactive .neither).ownOffer.cab = .noCab ∧ (s .inactive .both).ownOffer.cab = .idle ∧
      (s .activeA .onlyA).ownOffer.cab = .activeA ∧ (s .activeB .both).ownOffer.cab = .activeB ∧
      (sensing fun d => { d with state := .held, held := some ⟨.b, 3⟩ }).ownOffer =
        { epoch := 1, endA := ⟨⟨.held, 3, some .b⟩, false⟩, endB := ⟨⟨.openEnd, 0, none⟩, false⟩
          cab := .idle, ceiling := .g4, payloadMax := .p64 } := by decide +kernel

/-- Alone on the bus: both ends open, three own offers sent. -/
def alone : State :=
  { offering with comp := { offering.comp with table := quiet.comp.table, ownSent := 3, offerDone := true } }

/-- Alone, the station places itself and adopts at once. With the overflow mark its placement fails, and with a
saturated mark in the table it is TOO LONG (R91, R92). -/
theorem test_LastEntryTimeout :
    let failing := { alone with comp := { alone.comp with overflow := true } }
    let long := { alone with comp := { alone.comp with
      table := alone.comp.table ++ [{ entry4101 with offer :=
        { entry4101.offer with endA := ⟨⟨.openEnd, 0, none⟩, true⟩ } }] } }
    alone.comp.lastEntry = some 0 ∧
      ends .lastEntryTimeout alone (fun t => t.comp.state = .settled && t.now = 640000 &&
        t.comp.current.map Roster.n = some 1 && t.flagSet .adopted) = true ∧
      ends .lastEntryTimeout failing (fun t => t.comp.state = .quiet && t.comp.failed = 1 &&
        t.comp.epoch = 2 && t.comp.reason = .roundFailed) = true ∧
      place long.comp.table false none 1 4102 = .tooLong ∧
      ends .lastEntryTimeout long (fun t => t.comp.state = .limp && t.comp.failed = 0 &&
        t.comp.epoch = 1) = true := by decide +kernel

/-- Two stations in the table: the pending roster waits for the other's confirm, or is adopted at once where the
digest has been confirmed before. -/
theorem test_LastEntryTimeout_waits :
    let s (confirmed : Option Digest) : State := { alone with comp := { alone.comp with
      table := [⟨4102, offer 1 ⟨.openEnd, 0, none⟩ ⟨.held, 1, some .b⟩, none⟩,
        { entry4101 with confirmed := confirmed }] } }
    let digest := ((after .lastEntryTimeout (s none)).comp.pendingRoster.map Roster.digest)
    ends .lastEntryTimeout (s none) (fun t => t.comp.state = .confirm &&
      t.comp.pendingRoster.map Roster.n = some 2) = true ∧
      ends .lastEntryTimeout (s digest) (fun t => t.comp.state = .settled &&
        t.comp.current.map Roster.n = some 2) = true := by decide +kernel

theorem test_table_alone : TableOk alone := by
  refine ⟨by decide +kernel, fun _ => ?_, by decide +kernel, by decide +kernel, by decide +kernel⟩
  exact ⟨quiet.ownEntry, by decide +kernel, by decide +kernel⟩

/-- The third own offer completes: with one entry where the own counts imply one the station is placed; with two it
waits for the 160 ms; with two offers only, or none completed in OFFER, nothing is placed. -/
theorem test_CompletionPlaces :
    let own := quiet.ownOffer
    let tx : Tx := ⟨{ cls := 2, source := 4102, grade := .g1, body := (CompFrame.offer own).body }, .comp (.offer own)⟩
    let s := sending tx { alone with comp := { alone.comp with ownSent := 2, offerDone := false } }
    let two := { s with comp := { s.comp with table := offering.comp.table } }
    own.epoch = s.comp.epoch ∧ own.endA.report.count + own.endB.report.count + 1 = 1 ∧
      s.comp.lastEntry = some 0 ∧
      ends .cleanCompletion s (fun t => t.comp.state = .settled && t.bus.tx = none) = true ∧
      ends .cleanCompletion two (fun t => t.comp.state = .offer && t.comp.ownSent = 3) = true ∧
      ends .lastEntryTimeout { alone with comp := { alone.comp with ownSent := 2 } } (fun t =>
        t.comp.state = .offer) = true ∧
      ends .lastEntryTimeout { alone with comp := { alone.comp with offerDone := false } } (fun t =>
        t.comp.state = .offer) = true := by decide +kernel

theorem test_RoundDeadline :
    offering.comp.deadlineDue = some 8000000 ∧
      ends .roundDeadline offering (fun t => t.comp.state = .quiet && t.comp.failed = 1 &&
        t.comp.epoch = 2) = true ∧
      ends .roundDeadline { alone with comp := { alone.comp with failed := 2 } } (fun t =>
        t.comp.state = .limp && t.comp.failed = 3 && t.comp.epoch = 1 &&
        t.comp.current.map Roster.status = some .limp && t.comp.retryDue = some 128000000 &&
        t.port.flags = 3) = true := by decide +kernel

/-- At an adoption one entry in flight owes its rename, one is renamed and one is too long. -/
theorem test_Adoption :
    let c := { confirming with cargo := { confirming.cargo with queue :=
      [{ message 1 with inFlight := true }, { message 2 with dest := .position 2 false },
        { message 3 with payload := List.replicate 33 7 }] } }
    let s := c.adopt false { roster with cabConflict := true, ownPos := 16 }
    (c.cargo.queue.map TxEntry.ticket).Nodup ∧ c.cargo.outcomes.length + c.cargo.queue.length ≤ 32 ∧
      s.comp.state = .settled ∧ s.comp.presenceDue = some 256000 ∧
      s.comp.watch = [⟨4101, 0⟩] ∧ s.port.flags = 0x0441 ∧ s.bus.cargoGrade = .g2 ∧ s.comp.previous = none ∧
      s.cargo.queue = [{ message 1 with inFlight := true, renameOwed := true },
        { message 2 with dest := .position 2 true }] ∧
      s.cargo.outcomes = [⟨3, .oversize, none⟩] ∧
      (c.adopt true { roster with status := .limp }).comp.retryDue = some 120000000 := by decide +kernel

theorem test_LimpRetry :
    limp.comp.retryDue = some 500 ∧ limp.currentIsLimp = true ∧
      ends .limpRetry limp (fun t => t.comp.state = .quiet && t.comp.epoch = 2 && t.gateOpen &&
        t.comp.watch = [⟨4101, 0⟩] && t.now = 500) = true := by decide +kernel

/-- The LIMP retry expiry at the instant of another trigger taken first begins the round again (R81), and a timer
stopped before it was due does not expire. -/
theorem test_LimpRetry_together :
    let limpAt (now : Ticks) : State := { limp with now := now }
    let both (now : Ticks) : State := after .limpRetry (after .recompose (limpAt now))
    (limpAt 500).comp.state = .limp ∧ (after .recompose (limpAt 500)).comp.retryFell = some 500 ∧
      (both 500).comp.epoch = 3 ∧ (both 500).comp.reason = .limpRetry ∧ (both 500).comp.retryFell = none ∧
      (both 500).roundKind = .background ∧ (both 499).comp.epoch = 2 ∧ (both 499).comp.reason = .command ∧
      (after .limpRetry (after (.releaseAsserted .a) (limpAt 500))).comp.epoch = 3 ∧
      ends .limpRetry { (after .recompose (limpAt 500)) with now := 501 } (fun t => t.comp.epoch = 2) = true ∧
      (after .limpRetry (limpAt 500)).comp.retryFell = none := by decide +kernel

theorem test_MemberLost :
    settled.comp.watch.find? (fun x => x.id = 4101) = some ⟨4101, 0⟩ ∧
      ends (.memberLost 4101) settled (fun t => t.comp.reason = .memberLost && t.now = 1200000 &&
        t.comp.watch = [] && t.comp.epoch = 2) = true := by decide +kernel

theorem test_PresencePoint :
    let long (n : Nat) : State := under .settled { roster with
      entries := List.replicate n RosterEntry.silent } quiet
    settled.comp.presenceDue = some 16000 ∧ settled.bus.idle = false ∧
      ends .presenceSchedulePoint settled (fun t => t.bus.slot = some (.presence 1 0x9A3C51E7) &&
        t.comp.presenceDue = some 416000) = true ∧
      ends .presenceSchedulePoint (long 4) (fun t => t.comp.presenceDue = some 416000) = true ∧
      ends .presenceSchedulePoint (long 5) (fun t => t.comp.presenceDue = some 616000) = true ∧
      ends .presenceSchedulePoint (long 9) (fun t => t.comp.presenceDue = some 816000) = true ∧
      ends .presenceSchedulePoint (long 13) (fun t => t.comp.presenceDue = some 1016000) = true := by
  decide +kernel

theorem test_OfferReceived :
    let o := offer 1 ⟨.openEnd, 0, none⟩ ⟨.held, 1, some .b⟩
    let full := { quiet with comp := { quiet.comp with
      table := (List.range 16).map fun i => ⟨BitVec.ofNat 32 (5000 + i), o, none⟩ } }
    (quiet.takeOffer 4101 o).2 = .new ∧ (full.takeOffer 4101 o).2 = .notStored ∧
      (offering.takeOffer 4101 o).2 = .same ∧
      (offering.takeOffer 4101 { o with cab := .idle }).2 = .changed ∧
      judgeEpoch (32768 : Epoch) 1 = .newer ∧
      (quiet.receiveOffer 4101 { o with epoch := 32768 }).comp.epoch = 32768 ∧
      judgeEpoch (32769 : Epoch) 1 = .opposite ∧ judgeEpoch (0 : Epoch) 1 = .older ∧
      (quiet.receiveOffer 4101 { o with epoch := 32769 }).bus.counters.stale = 1 ∧
      (quiet.receiveOffer 4101 { o with epoch := 0 }).bus.counters.stale = 1 := by decide +kernel

/-- What an offer of the own epoch does in OFFER, CONFIRM and SETTLED, from a member and from a stranger. -/
theorem test_OfferReceived_own_epoch :
    let o := offer 1 ⟨.openEnd, 0, none⟩ ⟨.held, 1, some .b⟩
    let due : State := { alone with comp := { alone.comp with
      table := [⟨4102, offer 1 ⟨.openEnd, 0, none⟩ ⟨.held, 1, some .b⟩, none⟩] } }
    o.epoch = offering.comp.epoch ∧ (offering.receiveOffer 4103 o).comp.state = .offer ∧
      (due.takeOffer 4101 o).2 = .new ∧ (due.receiveOffer 4101 o).comp.state = .confirm ∧
      (confirming.receiveOffer 4101 o).comp.state = .confirm ∧
      (confirming.receiveOffer 4103 o).comp.state = .offer ∧
      (confirming.receiveOffer 4103 o).comp.pendingRoster = none ∧
      (settled.receiveOffer 4101 o).bus.slot = some (.confirm 1 0x9A3C51E7 1) ∧
      (settled.receiveOffer 4103 o).comp.reason = .strangerOffer ∧
      (({ settled with comp := { settled.comp with
        table := settled.comp.table ++ [⟨4103, o, none⟩] } } : State).receiveOffer 4103 o).comp.state = .settled := by decide +kernel

theorem test_table_due : TableOk ((({ alone with comp := { alone.comp with
    table := [⟨4102, offer 1 ⟨.openEnd, 0, none⟩ ⟨.held, 1, some .b⟩, none⟩] } } : State).takeOffer 4101
      (offer 1 ⟨.openEnd, 0, none⟩ ⟨.held, 1, some .b⟩)).1) := by
  refine ⟨by decide +kernel, fun _ => ?_, by decide +kernel, by decide +kernel, by decide +kernel⟩
  exact ⟨⟨4102, offer 1 ⟨.openEnd, 0, none⟩ ⟨.held, 1, some .b⟩, none⟩, by decide +kernel, by decide +kernel⟩

/-- Confirms of the own epoch: recorded in OFFER; in CONFIRM from a non-member, agreeing and completing the set or not,
disagreeing for the first and for a further time; in SETTLED answered or not, and from strangers. -/
theorem test_ConfirmReceived :
    let d : Digest := 0x9A3C51E7
    let own : State := { confirming with comp := { confirming.comp with
      table := confirming.comp.table.map fun x => if x.id = 4102 then { x with confirmed := some d } else x } }
    let once (failed : Nat) : State := { confirming with comp := { confirming.comp with
      disagreements := 1, failed := failed } }
    let member (c : Option Digest) : State := { settled with comp := { settled.comp with
      table := settled.comp.table ++ [{ entry4101 with confirmed := c }] } }
    (confirming.comp.table.map HeardEntry.id).Nodup ∧ judgeEpoch (2 : Epoch) 1 = .newer ∧
      (quiet.receiveConfirm 4101 2 d 2).comp.epoch = 2 ∧ quiet.receiveConfirm 4101 0 d 2 = quiet ∧
      (offering.receiveConfirm 4101 1 d 2).comp.table.map HeardEntry.confirmed = [none, some d] ∧
      (confirming.receiveConfirm 4103 1 d 2).comp.state = .confirm ∧
      roster.posOf 4101 = some 2 ∧ (own.receiveConfirm 4101 1 d 2).comp.state = .settled ∧
      (confirming.receiveConfirm 4101 1 d 2).comp.state = .confirm ∧
      (confirming.receiveConfirm 4101 1 d 3).comp.disagreements = 1 ∧
      (confirming.receiveConfirm 4101 1 5 2).comp.state = .offer ∧
      ((once 0).receiveConfirm 4101 1 5 2).comp.epoch = 2 ∧
      ((once 2).receiveConfirm 4101 1 5 2).comp.state = .limp ∧
      ((member none).receiveConfirm 4101 1 d 2).bus.slot = some (.confirm 1 d 1) ∧
      ((member (some d)).receiveConfirm 4101 1 d 2).bus.slot = none ∧
      (settled.receiveConfirm 4103 1 d 2).comp.reason = .strangerOffer ∧
      (({ settled with comp := { settled.comp with table := settled.comp.table ++ [{ entry4101 with id := 4103 }] } }
        : State).receiveConfirm 4103 1 d 2).comp.state = .settled := by decide +kernel

/-- Presences: newer, of the current roster's epoch from a member and from a stranger, in SETTLED, in LIMP and in a
foreground round, and of another epoch. -/
theorem test_PresenceReceived :
    let d : Digest := 0x9A3C51E7
    let round := under .quiet roster quiet
    (settled.receivePresence 4101 2 d).comp.reason = .newerEpoch ∧ settled.receivePresence 4101 1 d = settled ∧
      quiet.receivePresence 4101 1 d = quiet ∧ settled.receivePresence 4101 0 d = settled ∧
      (settled.receivePresence 4101 1 5).comp.reason = .digestMismatch ∧
      limp.receivePresence 4101 1 5 = limp ∧
      (settled.receivePresence 4103 1 d).bus.counters.stranger = 1 ∧
      round.receivePresence 4101 1 5 = round := by decide +kernel

/-- A run of a lone station, of two with the cab of the second active, and with a SILENT carriage between. -/
theorem test_RosterRecord :
    let x : HeardEntry := ⟨4102, { offer 1 ⟨.openEnd, 0, none⟩ ⟨.openEnd, 0, none⟩ with cab := .activeB }, none⟩
    let y : HeardEntry := entry4101
    let one := buildRoster false 1 4102 [some ⟨{ x with offer := { x.offer with cab := .idle } }, .b⟩] true
    let two := buildRoster false 1 4102 [some ⟨y, .a⟩, none, some ⟨x, .a⟩] false
    one.entries = [.heard 4102 .forward .idle .g2 .p32] ∧ one.noCab = true ∧ one.status = .complete ∧
      two.entries = [.heard 4102 .reversed .active .g2 .p32, .silent, .heard 4101 .reversed .noCab .g2 .p32] ∧
      two.ownPos = 1 ∧ two.status = .partialRoster ∧ two.jointGrade = .g2 ∧ two.jointPayload = .p32 ∧
      (buildRoster true 1 4102 [some ⟨y, .a⟩, some ⟨x, .b⟩] false).jointPayload = .p16 := by decide +kernel

/-- Two stations, the table in the other order; the leading end is that of the smaller identity. -/
theorem test_AlignedTrain :
    let x : HeardEntry := ⟨4102, offer 1 ⟨.openEnd, 0, none⟩ ⟨.held, 1, some .a⟩, none⟩
    let y : HeardEntry := ⟨4101, offer 1 ⟨.held, 1, some .b⟩ ⟨.parting, 0, none⟩, none⟩
    (match place [y, x] false none 1 4102 with
     | .success r => r.entries = [.heard 4101 .reversed .noCab .g2 .p32, .heard 4102 .reversed .noCab .g2 .p32] &&
         r.ownPos = 2
     | _ => false) = true ∧
      (match place [x, y] false none 1 4102 with
       | .success r => r.ownPos = 2
       | _ => false) = true := by decide +kernel

/-- Station `id` at index `i` of a row of `n` that all stand A end first. -/
def inRow (n i : Nat) (id : Identity) : HeardEntry :=
  ⟨id, offer 1 (if i = 0 then ⟨.openEnd, 0, none⟩ else ⟨.held, i, some .b⟩)
    (if i + 1 = n then ⟨.openEnd, 0, none⟩ else ⟨.held, n - 1 - i, some .a⟩), none⟩

/-- The identities of a placed roster, in the order of its positions. -/
def placedIds : PlacementResult → Option (List (Option Identity))
  | .success r => some (r.entries.map RosterEntry.id?)
  | _ => none

/-- A row of five with the middle one silent, seen from either side; with a silent extremity; and a heard station
between two silent ones. -/
theorem test_BrokenTrain_gap :
    let row := (List.range 5).map fun i => inRow 5 i (BitVec.ofNat 32 (4101 + i))
    let without (gone : List Nat) := row.filter fun x => !gone.contains (x.id.toNat - 4101)
    let seen (gone : List Nat) (own : Identity) := place (without gone) false none 1 own
    Aligned row Triple.bounds Triple.bounds ∧
      (placedIds (seen [2] 4101) = some [some 4101, some 4102, none, some 4104, some 4105] ∧
      placedIds (seen [2] 4105) = some [some 4101, some 4102, none, some 4104, some 4105] ∧
      placedIds (seen [3, 4] 4101) = some [some 4101, some 4102, some 4103] ∧
      placedIds (seen [0] 4105) = some [some 4102, some 4103, some 4104, some 4105] ∧
      (match seen [3, 4] 4101 with | .success r => r.split | _ => false) = true ∧
      (match seen [2] 4101 with | .success r => r.split | _ => true) = false ∧
      seen [1, 3] 4103 = .unplaced) := by
  refine ⟨⟨by decide +kernel, fun j x h => ?_, fun j x h => ?_⟩, by decide +kernel⟩
  all_goals
    match j with
    | 0 | 1 | 2 | 3 | 4 => obtain rfl := Option.some.inj h; decide +kernel
    | j + 5 => simp at h

/-- Two rows of two that read a fault toward each other: joined by the evidence of the current roster, and without one
a conflict. -/
theorem test_BrokenTrain_fault :
    let f : Triple := ⟨.fault, 0, none⟩
    let l0 := inRow 2 0 4101
    let l1 : HeardEntry := ⟨4102, offer 1 ⟨.held, 1, some .b⟩ f, none⟩
    let r0 : HeardEntry := ⟨4103, offer 1 f ⟨.held, 1, some .a⟩, none⟩
    let r1 := inRow 2 1 4104
    let row : List RosterEntry := [4101, 4102, 4103, 4104].map (.heard · .forward .noCab .g2 .p32)
    let cur : Roster := { roster with entries := row }
    let table := [r1, l1, l0, r0]
    Aligned [l0, l1] Triple.bounds (fun t => t = f) ∧ Aligned [r0, r1] (fun t => t = f) Triple.bounds ∧
      (placedIds (place table false (some cur) 1 4102) = some [some 4101, some 4102, some 4103, some 4104] ∧
      placedIds (place table false (some cur) 1 4103) = some [some 4101, some 4102, some 4103, some 4104] ∧
      place table false none 1 4102 = .conflict) := by
  refine ⟨⟨by decide +kernel, fun j x h => ?_, fun j x h => ?_⟩,
    ⟨by decide +kernel, fun j x h => ?_, fun j x h => ?_⟩, by decide +kernel⟩
  all_goals
    match j with
    | 0 | 1 => obtain rfl := Option.some.inj h; decide +kernel
    | j + 2 => simp at h

/-- The failures of full placement and the limp rosters of the same tables: the overflow and saturated marks, two
matches, an own entry on no walk, and a walk whose mirror differs. -/
theorem test_LimpPlaces :
    let o : Triple := ⟨.openEnd, 0, none⟩
    let x (id : Identity) (a b : Triple) : HeardEntry := ⟨id, offer 1 a b, none⟩
    let p := inRow 2 0 4101
    let q := inRow 2 1 4102
    let marked : HeardEntry := { q with offer := { q.offer with endB := ⟨o, true⟩ } }
    let twin := x 4103 ⟨.held, 1, some .b⟩ o
    let lost := x 4104 ⟨.held, 5, some .b⟩ ⟨.held, 9, some .a⟩
    let m0 := x 4101 o ⟨.held, 5, some .a⟩
    let m1 := x 4102 ⟨.held, 1, some .b⟩ o
    let limpIds (t : List HeardEntry) (own : HeardEntry) := (limpRoster t none 1 own).entries.map RosterEntry.id?
    place [p, q] true none 1 4101 = .overflow ∧ limpIds [p, q] p = [some 4101, some 4102] ∧
      place [p, marked] false none 1 4101 = .tooLong ∧ limpIds [p, marked] p = [some 4101, some 4102] ∧
      place [p, q, twin] false none 1 4101 = .conflict ∧
      place [p, q, lost] false none 1 4104 = .unplaced ∧ limpIds [p, q, lost] lost = [some 4104] ∧
      (limpRoster [p, q, lost] none 1 lost).split = true ∧ (limpRoster [p, q, lost] none 1 lost).status = .limp ∧
      place [m0, m1] false none 1 4101 = .conflict ∧ place [m0, m1] false none 1 4102 = .conflict ∧
      limpIds [m0, m1] m0 = [some 4101] ∧ limpIds [m0, m1] m1 = [some 4102] := by decide +kernel

theorem test_PlacementIgnoresArrivalOrder :
    (offering.comp.table).Perm offering.comp.table.reverse ∧
      (offering.comp.table.map HeardEntry.id).Nodup :=
  ⟨(List.reverse_perm _).symm, by decide +kernel⟩

/-! ## Witnesses: grade and cargo -/

/-- The state of a part that has been stopped. -/
def silenced : State :=
  { quiet with
    port := { quiet.port with part := .silenced }
    bus := { quiet.bus with ctrl := .silenced }
    comp := { quiet.comp with state := .halted } }

/-- SETTLED with an error count, an up-run and a ceiling. -/
def window (errors upRun : Nat) (ceiling : Grade) : State :=
  { settled with grade := { settled.grade with errors := errors, upRun := upRun, ceiling := ceiling } }

theorem test_WindowEnd :
    settled.grade.windowDue = some 4000000 ∧ settled.grade.limit = .g4 ∧
      ends .windowEnd (window 1 28 .g2) (fun t => t.grade.upRun = 29 && t.grade.ceiling = .g2 &&
        t.grade.windowDue = some 8000000) = true ∧
      ends .windowEnd (window 1 29 .g4) (fun t => t.grade.upRun = 0 && t.grade.ceiling = .g4) = true ∧
      ends .windowEnd (window 1 29 .g2) (fun t => t.grade.ceiling = .g3 && t.port.flags = 0x80 &&
        t.comp.reason = .ceiling) = true ∧
      ends .windowEnd (window 2 29 .g2) (fun t => t.grade.upRun = 0 && t.grade.ceiling = .g2) = true ∧
      ends .windowEnd (window 7 5 .g2) (fun t => t.grade.upRun = 0 && t.grade.ceiling = .g2) = true ∧
      ends .windowEnd (window 8 5 .g1) (fun t => t.grade.ceiling = .g1 && t.port.flags = 0) = true ∧
      ends .windowEnd (window 8 5 .g2) (fun t => t.grade.ceiling = .g1 && t.port.flags = 0x80) = true ∧
      ends .windowEnd { silenced with grade := { silenced.grade with errors := 8 } } (fun t =>
        t.grade.ceiling = .g3 && t.port.flags = 0x80 && t.comp = silenced.comp) = true := by
  decide +kernel

theorem test_LifetimeExpiry :
    let x := { message 3 with expiry := some 40000 }
    (message 3).ticket = 3 ∧
      ends (.lifetimeExpiry 3) (queued [x, message 4]) (fun t => t.cargo.queue = [message 4] &&
        t.cargo.outcomes = [⟨3, .expired, none⟩] && t.now = 40000) = true ∧
      ends (.lifetimeExpiry 3) (queued [{ x with inFlight := true }]) (fun t =>
        t.cargo.queue = [{ x with inFlight := true, lapsed := true }]) = true := by decide +kernel

/-- Previously 4101 led and 4103 was at position 3; now 4102 leads. -/
theorem test_Rename :
    let prev := { roster with entries := [.heard 4101 .forward .noCab .g2 .p32,
      .heard 4102 .forward .noCab .g2 .p32, .heard 4103 .forward .noCab .g2 .p32, .silent] }
    reviewDest (some prev) roster (.position 1 true) = .ok (.position 2 true) ∧
      reviewDest (some prev) roster (.position 3 true) = .error .departed ∧
      reviewDest (some prev) roster (.position 4 true) = .error .unresolved ∧
      reviewDest (some prev) roster (.position 2 false) = .ok (.position 2 true) ∧
      reviewDest (some prev) roster (.position 1 false) = .error .unresolved ∧
      reviewDest (some prev) roster (.identity 4101) = .ok (.identity 4101) ∧
      reviewDest (some prev) roster (.identity 4103) = .error .departed ∧
      reviewDest (some prev) roster .leading = .ok .leading ∧
      reviewEntry (some prev) roster { message 3 with payload := List.replicate 32 7 } =
        .ok { message 3 with payload := List.replicate 32 7 } ∧
      reviewEntry (some prev) roster { message 3 with payload := List.replicate 33 7 } = .error .oversize ∧
      reviewEntry (some prev) roster { message 3 with dest := .identity 4103, payload := List.replicate 33 7 } =
        .error .departed := by
  refine ⟨?_, ?_, ?_, ?_, ?_, ?_, ?_, ?_, ?_, ?_, ?_⟩ <;> rfl

/-! ## Witnesses: the whole machine -/

theorem test_modes : Modes quiet := by
  constructor <;> decide +kernel

theorem test_image : ImageOk quiet := by
  intro i h
  have e : quiet.port.image = some image := by decide +kernel
  rw [e] at h
  cases h
  decide

theorem test_table : TableOk quiet := by
  refine ⟨by decide +kernel, fun _ => ?_, by decide +kernel, by decide +kernel, by decide +kernel⟩
  exact ⟨quiet.ownEntry, by decide +kernel, by decide +kernel⟩

theorem test_queue : QueueOk quiet.cargo := by
  constructor <;> decide +kernel

theorem test_flight : FlightOk quiet := by
  refine ⟨by decide +kernel, fun t h => ?_⟩
  have e : quiet.flight = none := by decide +kernel
  rw [e] at h
  cases h

theorem test_levels : LevelsOk quiet := by
  constructor <;> decide +kernel

theorem test_rosters : RostersOk quiet := by
  have h : quiet.comp.pendingRoster = none ∧ quiet.comp.current = none ∧ quiet.comp.previous = none ∧
      quiet.comp.state = .quiet := by decide +kernel
  obtain ⟨h1, h2, h3, h4⟩ := h
  constructor <;> simp [h1, h2, h3, h4]

/-- Adoption of a roster placed alone: the rosters are sound in SETTLED too. -/
theorem test_rosters_settled : RostersOk (after .lastEntryTimeout alone) := by
  let s := after .lastEntryTimeout alone
  have h : s.comp.pendingRoster = none ∧ s.comp.previous = none ∧ s.comp.state = .settled := by decide +kernel
  obtain ⟨h1, h2, h3⟩ := h
  obtain ⟨r, hr⟩ : ∃ r, s.comp.current = some r := Option.isSome_iff_exists.mp (by decide +kernel)
  have hok : s.comp.current.all (fun r => decide (1 ≤ r.n ∧ r.n ≤ 16 ∧ r.heardIds.Nodup ∧
      r.idAt r.ownPos = some s.identity ∧ r.status = .complete ∧ .silent ∉ r.entries ∧
      r.jointGrade = jointGradeOf r.entries ∧ r.jointPayload = jointPayloadOf r.entries ∧
      r.digest = digestOf r.entries r.jointGrade r.jointPayload ∧ r.epoch = s.comp.epoch)) = true := by
    decide +kernel
  rw [hr] at hok
  simp only [Option.all_some, decide_eq_true_eq] at hok
  obtain ⟨a1, a2, a3, a4, a5, a6, a7, a8, a9, a10⟩ := hok
  have one : RosterOk s.identity r :=
    ⟨⟨a1, a2⟩, a3, a4, fun _ => a6, by simp [a5], by simp [a5], fun _ => ⟨a7, a8⟩, a9⟩
  refine ⟨?_, ?_, ?_, ?_, ?_, ?_, ?_⟩
  · rintro x (hx | hx | hx)
    · rw [show (after .lastEntryTimeout alone).comp.pendingRoster = none from h1] at hx; cases hx
    · rw [show (after .lastEntryTimeout alone).comp.current = some r from hr] at hx; cases hx; exact one
    · rw [show (after .lastEntryTimeout alone).comp.previous = none from h2] at hx; cases hx
  · intro h; rw [show (after .lastEntryTimeout alone).comp.state = .settled from h3] at h; cases h
  · intro h; rw [show (after .lastEntryTimeout alone).comp.previous = none from h2] at h; simp at h
  · rw [show (after .lastEntryTimeout alone).comp.pendingRoster = none from h1,
      show (after .lastEntryTimeout alone).comp.state = .settled from h3]; simp
  · intro x hx; rw [show (after .lastEntryTimeout alone).comp.pendingRoster = none from h1] at hx; cases hx
  · intro _; exact ⟨r, hr, by simp [a5], a10⟩
  · intro h; rw [show (after .lastEntryTimeout alone).comp.state = .settled from h3] at h; cases h

/-- A safe state that is not the reset state, from which a step answers a next state. -/
theorem test_safe : Safe quiet :=
  ⟨test_modes, test_chains, test_image, test_table, test_queue, test_flight, test_rosters, test_levels⟩

theorem test_safe_step :
    (match step quiet with
     | .next t => t.comp.epoch = 2 && t.pending = []
     | .fault _ => false
     | .refused _ => false) = true := by decide +kernel

/-- From that safe state a release asserted changes the report of its end. -/
theorem test_ChainChange :
    ends (.releaseAsserted .a) quiet (fun t => t.report .a ≠ quiet.report .a && t.flagSet .chain &&
      t.flagSet .parting) = true := by decide +kernel

/-- What a chain change makes of the engine in QUIET, in SETTLED and in HALTED (R65, R66, R88). -/
theorem test_ChainTrigger :
    Chains settled ∧ Chains silenced ∧
      (ends (.releaseAsserted .a) { quiet with now := 5 } (fun t => t.comp.epoch = 1 && t.comp.reason = .parting &&
        t.comp.holdDue = some 320005) = true ∧
      ends (.partingSensed .b) settled (fun t => t.comp.epoch = 2 && t.comp.reason = .parting &&
        t.comp.state = .quiet) = true ∧
      ends (.isolate (.csnRises (bitsOfBytes [0, 1]))) settled (fun t => t.comp.epoch = 2 && t.comp.reason = .chain) = true ∧
      ends (.partingSensed .b) silenced (fun t => t.comp = silenced.comp && t.flagSet .parting) = true) := by
  refine ⟨chains_of_test (by decide +kernel) (by decide +kernel),
    chains_of_test (by decide +kernel) (by decide +kernel), ?_⟩
  decide +kernel

theorem test_PersistentState :
    quiet.port.part ≠ .unconfigured ∧
      ends (.releaseAsserted .a) { quiet with port := { quiet.port with flags := 0x10 } } (fun t =>
        t.flagSet .fault && t.port.image = quiet.port.image) = true := by decide +kernel

theorem test_PersistentState_silenced : Modes silenced ∧ silenced.port.part = .silenced ∧
    ends .recompose silenced (fun t => t.port.part = .silenced && t.comp.epoch = 1) = true := by
  refine ⟨by constructor <;> decide +kernel, by decide +kernel, by decide +kernel⟩

theorem test_CargoStarts : Modes (queued [message 3]) ∧ (queued [message 3]).flight = none ∧
    ends .busIdle (queued [message 3]) (fun t => t.flight = some 3 && t.comp.state = .settled) = true := by
  refine ⟨by constructor <;> decide +kernel, by decide +kernel, by decide +kernel⟩

end Sys2Proof.Tests
end

section
/-! The judgement of a period (R9, R10): its class, its candidate, and how an undistorted code is read back. -/

namespace Sys2Proof.Machine

variable {p h : Nat} {e : End}

/-! ## The class of a period (R9) -/

theorem periodClass_eq_some_iff :
    periodClass p = some e ↔
      (e = .a ∧ 2700 ≤ p ∧ p ≤ 3060) ∨ (e = .b ∧ 3300 ≤ p ∧ p ≤ 3740) := by
  unfold periodClass
  cases e <;> split_ifs <;> simp <;> omega

theorem periodClass_eq_none_iff :
    periodClass p = none ↔ p < 2700 ∨ (3060 < p ∧ p < 3300) ∨ 3740 < p := by
  unfold periodClass
  split_ifs <;> simp <;> omega

/-! ## The candidate of a period (R10) -/

theorem candidateOf_eq_none_of_class (hc : periodClass p = none) : candidateOf p h = none := by
  simp [candidateOf, hc]

theorem candidateOf_of_class (hc : periodClass p = some e) :
    candidateOf p h =
      if quarterSteps e p h % 4 = 2 ∨ quarterSteps e p h < 7 ∨ 69 < quarterSteps e p h then none
      else some ⟨e, (quarterSteps e p h + 1) / 4 - 1⟩ := by
  simp [candidateOf, hc]

/-- A valid quarter-step value lies within one quarter step of the 4c + 4 of a code c that R10 allows. -/
theorem code_of_valid_quarterSteps {m : Nat} (hclear : m % 4 ≠ 2) (hlow : 7 ≤ m) (hhigh : m ≤ 69) :
    1 ≤ (m + 1) / 4 - 1 ∧ (m + 1) / 4 - 1 ≤ 16 ∧
      4 * ((m + 1) / 4 - 1) + 3 ≤ m ∧ m ≤ 4 * ((m + 1) / 4 - 1) + 5 := by
  omega

/-! ## The nominal clock: a high part of c + 1 chain steps of 160 ticks (R3) -/

theorem periodSteps_pos (e : End) : 0 < periodSteps e := by cases e <;> decide

theorem periodClass_nominal (e : End) : periodClass (160 * periodSteps e) = some e := by
  cases e <;> decide

/-- Half a period is less than a period, so the rounding of R10 adds nothing to an exact quotient. -/
theorem quarterSteps_nominal (e : End) (c : Nat) :
    quarterSteps e (160 * periodSteps e) (160 * (c + 1)) = 4 * c + 4 := by
  have hperiod : 0 < 160 * periodSteps e := by have := periodSteps_pos e; omega
  have hquarters : 4 * periodSteps e * (160 * (c + 1)) = 160 * periodSteps e * (4 * c + 4) := by ring
  have hhalf : 160 * periodSteps e / 2 / (160 * periodSteps e) = 0 :=
    Nat.div_eq_of_lt (Nat.div_lt_self hperiod (by decide))
  rw [quarterSteps, hquarters, Nat.mul_add_div hperiod, hhalf, Nat.add_zero]

theorem candidateOf_nominal (e : End) {c : Nat} (hlow : 1 ≤ c) (hhigh : c ≤ 16) :
    candidateOf (160 * periodSteps e) (160 * (c + 1)) = some ⟨e, c⟩ := by
  have hvalid : ¬((4 * c + 4) % 4 = 2 ∨ 4 * c + 4 < 7 ∨ 69 < 4 * c + 4) := by omega
  have hcode : (4 * c + 4 + 1) / 4 - 1 = c := by omega
  rw [candidateOf_of_class (periodClass_nominal e), quarterSteps_nominal, if_neg hvalid, hcode]

/-- Settles O16: a period of a class is judged by its quarter-step value, one of no class has no candidate, and on the
nominal clock the quarter-step value of a code is exact. -/
theorem periodReadAsCode : Obligations.PeriodReadAsCode := by
  refine ⟨?classed, fun p h hout => candidateOf_eq_none_of_class (periodClass_eq_none_iff.mpr hout),
    fun e c hlow hhigh => ⟨quarterSteps_nominal e c, candidateOf_nominal e hlow hhigh⟩⟩
  case classed =>
    intro p h cls n hcls m
    have hclass : periodClass p = some cls :=
      periodClass_eq_some_iff.mpr (hcls.imp (fun ⟨he, _, hp⟩ => ⟨he, hp⟩) (fun ⟨he, _, hp⟩ => ⟨he, hp⟩))
    have hm : quarterSteps cls p h = m := by
      obtain ⟨rfl, rfl, -⟩ | ⟨rfl, rfl, -⟩ := hcls <;> rfl
    have hcand := candidateOf_of_class (h := h) hclass
    rw [hm] at hcand
    refine ⟨fun hbad => hcand.trans (if_pos hbad), fun hclear hlow hhigh => ⟨?_, ?_⟩⟩
    · exact hcand.trans (if_neg (by omega))
    · exact code_of_valid_quarterSteps hclear hlow hhigh

end Sys2Proof.Machine
end

section
/-! The receiver on a whole frame (R27 to R30, R36, R37): from the start bit on it takes back the fields that the
sender put on the wire, whatever the stuffing, and ends with the frame. -/

namespace Sys2Proof.Machine

/-! ## Bits read back as numbers and bytes (R173) -/

/-- The accumulator that `numOf` folds with, over the bits of a number. -/
theorem foldl_bitsOf (w n acc : Nat) :
    (bitsOf w n).foldl (fun m b => 2 * m + b.toNat) acc = acc * 2 ^ w + n % 2 ^ w := by
  induction w generalizing acc with
  | zero => simp [bitsOf, Nat.mod_one]
  | succ w ih =>
    rw [bitsOf, List.foldl_cons, ih, Nat.toNat_testBit, Nat.mod_pow_succ]
    ring

theorem numOf_bitsOf {w n : Nat} (h : n < 2 ^ w) : numOf (bitsOf w n) = n := by
  rw [numOf, foldl_bitsOf, Nat.zero_mul, Nat.zero_add, Nat.mod_eq_of_lt h]

theorem bytesOfBits_bitsOfBytes (body : List Byte) (rest : List Bool) :
    bytesOfBits body.length (bitsOfBytes body ++ rest) = body := by
  induction body with
  | nil => rfl
  | cons b bs ih =>
    have hsplit : bitsOfBytes (b :: bs) ++ rest = bitsOf 8 b.toNat ++ (bitsOfBytes bs ++ rest) := by
      simp [bitsOfBytes]
    have hbyte : byteOf (numOf (bitsOf 8 b.toNat)) = b := by
      rw [numOf_bitsOf b.isLt, byteOf, BitVec.ofNat_toNat, BitVec.setWidth_eq]
    rw [List.length_cons, bytesOfBits, hsplit, List.take_left' (length_bitsOf 8 _),
      List.drop_left' (length_bitsOf 8 _), hbyte, ih]

theorem Grade.code_lt (g : Grade) : g.code < 4 := by cases g <;> decide

@[simp] theorem Grade.ofCode_code (g : Grade) : Grade.ofCode g.code = g := by cases g <;> rfl

/-! ## The fields of a frame's content (R27) -/

variable {f : Frame} {permitted : BitVec 4} {r : Rx} {rest : List Bool}

@[simp] theorem Frame.length_coveredBits (f : Frame) : f.coveredBits.length = 45 + 8 * f.body.length := by
  simp [Frame.coveredBits]
  omega

@[simp] theorem Frame.length_contentBits (f : Frame) :
    f.contentBits.length = 45 + 8 * f.body.length + 16 := by
  simp [Frame.contentBits]

theorem Frame.contentBits_cls (f : Frame) : (f.contentBits.drop 0).take 3 = bitsOf 3 f.cls := by
  simp [Frame.contentBits, Frame.coveredBits]

theorem Frame.contentBits_source (f : Frame) :
    (f.contentBits.drop 3).take 32 = bitsOf 32 f.source.toNat := by
  simp [Frame.contentBits, Frame.coveredBits]

theorem Frame.contentBits_grade (f : Frame) :
    (f.contentBits.drop 35).take 2 = bitsOf 2 f.grade.code := by
  simp [Frame.contentBits, Frame.coveredBits, List.drop_append, List.drop_eq_nil_of_le]

theorem Frame.contentBits_length (f : Frame) :
    (f.contentBits.drop 37).take 8 = bitsOf 8 f.body.length := by
  simp [Frame.contentBits, Frame.coveredBits, List.drop_append, List.drop_eq_nil_of_le]

theorem Frame.contentBits_body (f : Frame) :
    f.contentBits.drop 45 = bitsOfBytes f.body ++ bitsOf 16 (crc16 f.coveredBits 0xFFFF#16).toNat := by
  simp [Frame.contentBits, Frame.coveredBits, List.drop_append, List.drop_eq_nil_of_le]

/-! ## One wire bit: the rule of each part of the frame (R28, R36, R38) -/

theorem Rx.judgeBit_content (b : Bool) (hwaiting : r.waiting = false) (hrun : r.run ≠ 5)
    (hopen : ¬r.contentComplete = true) :
    r.judgeBit permitted b = Rx.judge permitted
      { r with last := b, run := if b = r.last then r.run + 1 else 1, taken := b :: r.taken } := by
  simp [Rx.judgeBit, hwaiting, hrun, hopen]

theorem Rx.judgeBit_stuffBit (hwaiting : r.waiting = false) (hrun : r.run = 5) :
    r.judgeBit permitted (!r.last) =
      if r.contentComplete then Rx.judgeCrc { r with last := !r.last, run := 1 }
      else .more { r with last := !r.last, run := 1 } := by
  simp [Rx.judgeBit, hwaiting, hrun]

theorem Rx.judgeBit_endField (hwaiting : r.waiting = false) (hrun : r.run ≠ 5)
    (hdone : r.contentComplete = true) :
    r.judgeBit permitted true =
      if r.endBits = 6 then .complete r.frame else .more { r with endBits := r.endBits + 1 } := by
  simp [Rx.judgeBit, hwaiting, hrun, hdone]

theorem Rx.feed_cons {b : Bool} {bits : List Bool} {r' : Rx} (h : r.step permitted b = .more r') :
    r.feed permitted (b :: bits) = r'.feed permitted bits := by
  rw [Rx.feed, h]

/-! ## A receiver part way through the content -/

/-- The bits the receiver has taken are the content of `f` but for `rest`, and neither six recessive bits nor an
end-field bit have been read. -/
structure Rx.Awaits (f : Frame) (rest : List Bool) (r : Rx) : Prop where
  content : r.taken.reverse ++ rest = f.contentBits
  waiting : r.waiting = false
  endBits : r.endBits = 0

theorem Rx.Awaits.start (f : Frame) : Rx.afterStart.Awaits f f.contentBits := ⟨rfl, rfl, rfl⟩

theorem Rx.Awaits.length (h : r.Awaits f rest) :
    r.taken.length + rest.length = 45 + 8 * f.body.length + 16 := by
  simpa using congrArg List.length h.content

theorem Rx.Awaits.hear (h : r.Awaits f rest) (b : Bool) : (r.hear b).Awaits f rest :=
  ⟨h.content, h.waiting, h.endBits⟩

theorem Rx.Awaits.level (h : r.Awaits f rest) (last : Bool) (run : Nat) :
    Rx.Awaits f rest { r with last := last, run := run } :=
  ⟨h.content, h.waiting, h.endBits⟩

theorem Rx.Awaits.take {b : Bool} (h : r.Awaits f (b :: rest)) (last : Bool) (run : Nat) :
    Rx.Awaits f rest { r with last := last, run := run, taken := b :: r.taken } :=
  ⟨by simpa using h.content, h.waiting, h.endBits⟩

/-- A field that has been taken whole is the content's. -/
theorem Rx.Awaits.field (h : r.Awaits f rest) {start width : Nat} (htaken : start + width ≤ r.taken.length) :
    r.field start width = numOf ((f.contentBits.drop start).take width) := by
  rw [← h.content, List.drop_append_of_le_length (by simp; omega),
    List.take_append_of_le_length (by simp; omega), Rx.field]

theorem Rx.Awaits.field_cls (h : r.Awaits f rest) (hf : f.Readable permitted) (hlen : 3 ≤ r.taken.length) :
    r.field 0 3 = f.cls := by
  have hcls : f.cls < 2 ^ 3 := by have := hf.cls; omega
  rw [h.field hlen, f.contentBits_cls, numOf_bitsOf hcls]

theorem Rx.Awaits.field_source (h : r.Awaits f rest) (hlen : 35 ≤ r.taken.length) :
    r.field 3 32 = f.source.toNat := by
  rw [h.field hlen, f.contentBits_source, numOf_bitsOf f.source.isLt]

theorem Rx.Awaits.field_grade (h : r.Awaits f rest) (hlen : 37 ≤ r.taken.length) :
    r.field 35 2 = f.grade.code := by
  rw [h.field hlen, f.contentBits_grade, numOf_bitsOf f.grade.code_lt]

theorem Rx.Awaits.bodyLength (h : r.Awaits f rest) (hf : f.Readable permitted)
    (hlen : 45 ≤ r.taken.length) : r.bodyLength = f.body.length := by
  have hbody : f.body.length < 2 ^ 8 := by have := hf.body; omega
  rw [Rx.bodyLength, h.field hlen, f.contentBits_length, numOf_bitsOf hbody]

theorem Rx.Awaits.contentComplete_iff (h : r.Awaits f rest) (hf : f.Readable permitted) :
    r.contentComplete = true ↔ rest = [] := by
  have hlength := h.length
  rw [← List.length_eq_zero_iff]
  by_cases hlen : 45 ≤ r.taken.length
  · simp only [Rx.contentComplete, h.bodyLength hf hlen, Bool.and_eq_true, decide_eq_true_eq]
    omega
  · simp only [Rx.contentComplete, Bool.and_eq_true, decide_eq_true_eq]
    omega

/-! ## The content complete -/

theorem Rx.Awaits.judgeCrc (h : r.Awaits f []) (hf : f.Readable permitted) : r.judgeCrc = .more r := by
  have htaken : r.taken.reverse = f.coveredBits ++ bitsOf 16 (crc16 f.coveredBits 0xFFFF#16).toNat := by
    rw [← Frame.contentBits, ← h.content, List.append_nil]
  have hbody : r.bodyLength = f.body.length := h.bodyLength hf (by rw [← List.length_reverse, htaken]; simp; omega)
  have hcrc : r.crcMatches = true := by
    simp only [Rx.crcMatches, hbody, htaken, List.take_left' f.length_coveredBits,
      List.drop_left' f.length_coveredBits, numOf_bitsOf (BitVec.isLt _), decide_true]
  rw [Rx.judgeCrc, if_pos hcrc]

theorem Rx.Awaits.frame (h : r.Awaits f []) (hf : f.Readable permitted) : r.frame = f := by
  have hlength := h.length
  rw [List.length_nil] at hlength
  have htaken : r.taken.reverse = f.contentBits := by simpa using h.content
  simp only [Rx.frame, h.field_cls hf (by omega), h.field_source (by omega), h.field_grade (by omega),
    h.bodyLength hf (by omega), htaken, f.contentBits_body, bytesOfBits_bitsOfBytes, Grade.ofCode_code,
    BitVec.ofNat_toNat, BitVec.setWidth_eq]

/-! ## The bits of a readable frame, one by one -/

/-- No check of the header or of the CRC finds an error in a readable frame (R30, R37, R38). -/
theorem Rx.Awaits.judge (h : r.Awaits f rest) (hf : f.Readable permitted) :
    r.judge permitted = .more r := by
  unfold Rx.judge
  split_ifs with hthree hbad hheader hgrade hlen hlong hpermit hdone hrun
  · have hcls := hf.cls
    rw [h.field_cls hf (by omega)] at hbad
    simp only [Bool.or_eq_true, decide_eq_true_eq] at hbad
    omega
  · rfl
  · rw [h.field_cls hf (by omega), h.field_grade (by omega)] at hgrade
    simp only [Bool.and_eq_true, decide_eq_true_eq] at hgrade
    exact absurd (congrArg Grade.code (hf.grade hgrade.1)) hgrade.2
  · rfl
  · have hbody := hf.body
    rw [h.bodyLength hf (by omega)] at hlong
    omega
  · rfl
  · rw [h.field_grade (by omega), Grade.ofCode_code] at hpermit
    exact absurd hf.permit hpermit
  · rfl
  · obtain rfl := (h.contentComplete_iff hf).mp hdone
    exact h.judgeCrc hf
  · rfl

theorem Rx.Awaits.step_take {b : Bool} (h : r.Awaits f (b :: rest)) (hf : f.Readable permitted)
    (hrun : r.run ≠ 5) :
    ∃ r', r.step permitted b = .more r' ∧ r'.Awaits f rest ∧ r'.last = b ∧
      r'.run = if b = r.last then r.run + 1 else 1 := by
  have hheard := h.hear b
  have hopen : ¬(r.hear b).contentComplete = true := by simp [hheard.contentComplete_iff hf]
  have htaken := hheard.take b (if b = r.last then r.run + 1 else 1)
  exact ⟨_, (Rx.judgeBit_content b hheard.waiting hrun hopen).trans (htaken.judge hf), htaken, rfl, rfl⟩

theorem Rx.Awaits.step_stuffBit (h : r.Awaits f rest) (hf : f.Readable permitted) (hrun : r.run = 5) :
    ∃ r', r.step permitted (!r.last) = .more r' ∧ r'.Awaits f rest ∧ r'.last = !r.last ∧ r'.run = 1 := by
  have hheard := h.hear (!r.last)
  have hleft := hheard.level (!r.last) 1
  refine ⟨_, (Rx.judgeBit_stuffBit hheard.waiting hrun).trans ?_, hleft, rfl, rfl⟩
  split_ifs with hdone
  · obtain rfl := (hheard.contentComplete_iff hf).mp hdone
    exact hleft.judgeCrc hf
  · rfl

/-- The recessive bits of the end field that are still to come end a complete content with its frame (R27). -/
theorem Rx.feed_endField {k : Nat} (hdone : r.contentComplete = true) (hrun : r.run ≠ 5)
    (hwaiting : r.waiting = false) (hcount : r.endBits + k = 6) :
    r.feed permitted (List.replicate (k + 1) true) = .complete r.frame := by
  induction k generalizing r with
  | zero =>
    have hlast : r.step permitted true = .complete r.frame :=
      (Rx.judgeBit_endField (r := r.hear true) hwaiting hrun hdone).trans (if_pos hcount)
    rw [List.replicate_one, Rx.feed, hlast]
  | succ k ih =>
    have hnext : r.step permitted true = .more { r.hear true with endBits := r.endBits + 1 } :=
      (Rx.judgeBit_endField (r := r.hear true) hwaiting hrun hdone).trans
        (if_neg (show r.endBits ≠ 6 by omega))
    rw [List.replicate_succ, Rx.feed_cons hnext]
    exact ih hdone hrun hwaiting (show r.endBits + 1 + k = 6 by omega)

/-- A receiver part way through the content of a readable frame follows the sender's stuffing to the last bit of
the end field. -/
theorem Rx.Awaits.feed_rest (h : r.Awaits f rest) (hf : f.Readable permitted) :
    r.feed permitted (stuffFrom r.last r.run rest ++ List.replicate 7 true) = .complete f := by
  induction rest generalizing r with
  | nil =>
    have ends {x : Rx} (hx : x.Awaits f []) (hrun : x.run ≠ 5) :
        x.feed permitted (List.replicate 7 true) = .complete f := by
      rw [Rx.feed_endField ((hx.contentComplete_iff hf).mpr rfl) hrun hx.waiting (by rw [hx.endBits]),
        hx.frame hf]
    by_cases hrun : r.run = 5
    · obtain ⟨x, hstep, hx, -, hone⟩ := h.step_stuffBit hf hrun
      rw [stuffFrom, if_pos hrun, List.singleton_append, Rx.feed_cons hstep]
      exact ends hx (by omega)
    · rw [stuffFrom, if_neg hrun, List.nil_append]
      exact ends h hrun
  | cons b rest ih =>
    by_cases hrun : r.run = 5
    · obtain ⟨x, hstuff, hx, hlast, hone⟩ := h.step_stuffBit hf hrun
      obtain ⟨y, htake, hy, hylast, hyrun⟩ := hx.step_take hf (by omega)
      have hgoes := ih hy
      rw [hylast, hyrun, hlast, hone] at hgoes
      rw [stuffFrom, if_pos hrun, List.cons_append, List.cons_append, Rx.feed_cons hstuff, Rx.feed_cons htake]
      exact hgoes
    · obtain ⟨y, htake, hy, hylast, hyrun⟩ := h.step_take hf hrun
      have hgoes := ih hy
      rw [hylast, hyrun] at hgoes
      rw [stuffFrom, if_neg hrun, List.cons_append, Rx.feed_cons htake, hgoes]

theorem Frame.wireBits_drop_start (f : Frame) :
    f.wireBits.drop 1 = stuffFrom false 1 f.contentBits ++ List.replicate 7 true := rfl

/-- A receiver that has seen the start bit reads a readable frame back from its wire bits (R27 to R30). -/
theorem Rx.feed_wireBits (hf : f.Readable permitted) :
    Rx.afterStart.feed permitted (f.wireBits.drop 1) = .complete f := by
  rw [f.wireBits_drop_start]
  exact (Rx.Awaits.start f).feed_rest hf

end Sys2Proof.Machine
end

section
/-! The judgement of epochs (R48), and what a frame heard whole does: one of another station is delivered by its class
(R39), and a stale offer is counted (R54). -/

namespace Sys2Proof.Machine

variable {h e : Epoch} {s : State} {f : Frame} {o : OfferFields}

/-! ## The judgement, range by range (R48) -/

theorem epochDifference_eq (h e : Epoch) : (h - e).toNat = (h.toNat + 65536 - e.toNat) % 65536 := by
  rw [BitVec.toNat_sub]
  omega

theorem judgeEpoch_eq (h e : Epoch) :
    judgeEpoch h e =
      if (h - e).toNat = 0 then .equal
      else if (h - e).toNat ≤ 32767 then .newer
      else if (h - e).toNat = 32768 then .opposite
      else .older := rfl

theorem judgeEpoch_eq_equal_iff : judgeEpoch h e = .equal ↔ (h - e).toNat = 0 := by
  rw [judgeEpoch_eq]
  generalize (h - e).toNat = d
  split_ifs <;> simp <;> omega

theorem judgeEpoch_eq_newer_iff :
    judgeEpoch h e = .newer ↔ 1 ≤ (h - e).toNat ∧ (h - e).toNat ≤ 32767 := by
  rw [judgeEpoch_eq]
  generalize (h - e).toNat = d
  split_ifs <;> simp <;> omega

theorem judgeEpoch_eq_opposite_iff : judgeEpoch h e = .opposite ↔ (h - e).toNat = 32768 := by
  rw [judgeEpoch_eq]
  generalize (h - e).toNat = d
  split_ifs <;> simp <;> omega

theorem judgeEpoch_eq_older_iff : judgeEpoch h e = .older ↔ 32769 ≤ (h - e).toNat := by
  rw [judgeEpoch_eq]
  generalize (h - e).toNat = d
  split_ifs <;> simp <;> omega

theorem judgeEpoch_opposite_symm (hop : judgeEpoch h e = .opposite) : judgeEpoch e h = .opposite := by
  rw [judgeEpoch_eq_opposite_iff, epochDifference_eq] at hop ⊢
  omega

/-- One step past the opposite epoch lies in the older half, and sees the other in the newer half. -/
theorem judgeEpoch_raised_of_opposite (hop : judgeEpoch h e = .opposite) :
    judgeEpoch (h + 1) e = .older ∧ judgeEpoch e (h + 1) = .newer := by
  have hraised : (h + 1).toNat = (h.toNat + 1) % 65536 := BitVec.toNat_add h 1
  rw [judgeEpoch_eq_opposite_iff, epochDifference_eq] at hop
  rw [judgeEpoch_eq_older_iff, judgeEpoch_eq_newer_iff, epochDifference_eq, epochDifference_eq, hraised]
  omega

/-! ## A frame heard whole (R36 to R40, R54) -/

theorem execFrameReceived_wireBits (hrx : s.bus.rx = some .afterStart) (hf : f.Readable s.permitted) :
    exec (.frameReceived (f.wireBits.drop 1)) s =
      .next ((s.idleIn (Rx.afterStart.idleAfter s.permitted (f.wireBits.drop 1))).endReception.deliver f) := by
  have hexec : exec (.frameReceived (f.wireBits.drop 1)) s = execFrameReceived (f.wireBits.drop 1) s := rfl
  simp only [hexec, execFrameReceived, hrx, State.receive, Rx.feed_wireBits hf, State.takeReception]

theorem deliver_composition (hsource : f.source ≠ s.identity) (hcls : f.cls ≤ 3) :
    s.deliver f = s.deliverComp f := by
  rw [State.deliver, if_neg hsource, if_pos hcls]

theorem deliverComp_offer (hidle : s.comp.state ≠ .idle) (hhalted : s.comp.state ≠ .halted)
    (hsource : f.source ≠ 0) (hbody : compFrameOfBody? f.cls f.body = some (.offer o)) :
    s.deliverComp f = (s.noteHeard f.source).receiveOffer f.source o := by
  rw [State.deliverComp, if_neg (by simp only [hidle, hhalted, hsource, or_self, not_false_eq_true]), hbody]

theorem receiveOffer_stale (src : Identity)
    (hstale : judgeEpoch o.epoch s.comp.epoch = .older ∨ judgeEpoch o.epoch s.comp.epoch = .opposite) :
    s.receiveOffer src o = s.count .stale := by
  obtain hjudged | hjudged := hstale <;> rw [State.receiveOffer, hjudged]

/-- A stale offer of another station moves its sender's heard instant and counts, and does nothing else. -/
theorem deliver_staleOffer (hown : f.source ≠ s.identity) (hcls : f.cls ≤ 3) (hsource : f.source ≠ 0)
    (hidle : s.comp.state ≠ .idle) (hhalted : s.comp.state ≠ .halted)
    (hbody : compFrameOfBody? f.cls f.body = some (.offer o))
    (hstale : judgeEpoch o.epoch s.comp.epoch = .older ∨ judgeEpoch o.epoch s.comp.epoch = .opposite) :
    s.deliver f = (s.noteHeard f.source).count .stale := by
  rw [deliver_composition hown hcls, deliverComp_offer hidle hhalted hsource hbody]
  exact receiveOffer_stale f.source hstale

/-- Settles O34: each range of R48 from the difference, and a stale offer from the wire to the counter. -/
theorem epochJudgedByDifference : Obligations.EpochJudgedByDifference := by
  refine ⟨fun h e => ?ranges, ?delivery⟩
  case ranges =>
    simp only [← epochDifference_eq]
    exact ⟨judgeEpoch_eq_equal_iff, judgeEpoch_eq_newer_iff, judgeEpoch_eq_opposite_iff,
      judgeEpoch_eq_older_iff, fun hop => ⟨judgeEpoch_opposite_symm hop, judgeEpoch_raised_of_opposite hop⟩⟩
  case delivery =>
    intro s f hrx _ hf hcls hown hsource hidle hhalted o hbody hstale
    exact ⟨_, (execFrameReceived_wireBits hrx hf).trans (congrArg _ (deliver_staleOffer
      (s := (s.idleIn _).endReception) hown hcls hsource hidle hhalted hbody hstale)), rfl, rfl, rfl⟩

end Sys2Proof.Machine
end

section
/-! The composition engine as a sequence of primitive changes (chapters 3 and 4): one relation for a single change, and
for each operation of the engine one lemma that it is a sequence of them. An invariant of the engine is then proved once
for each primitive change. -/

namespace Sys2Proof.Machine

/-! ## The primitive changes -/

/-- The engine is at work: it has begun and is not halted. -/
def State.live (s : State) : Prop := s.comp.state ≠ .idle ∧ s.comp.state ≠ .halted

/-- The counts of the engine lie in their ranges (R50, R76, R79). -/
def Comp.LevelsOk (c : Comp) : Prop := c.failed ≤ 255 ∧ c.disagreements ≤ 2 ∧ c.ownSent ≤ 255

/-- A change of timers, reason, watch, marks and counts alone: state, epoch, table and rosters are kept, and the counts
stay in their ranges. -/
structure Comp.Keeps (c d : Comp) : Prop where
  state    : d.state = c.state
  epoch    : d.epoch = c.epoch
  table    : d.table = c.table
  pending  : d.pendingRoster = c.pendingRoster
  current  : d.current = c.current
  previous : d.previous = c.previous
  levels   : c.LevelsOk → d.LevelsOk

/-- One primitive change of the composition engine. -/
inductive EngineOp : State → State → Prop
  | mark {s : State} (c : Comp) (h : s.comp.Keeps c) : EngineOp s (s.setComp c)
  | count {s : State} (n : CounterName) (h : s.live) : EngineOp s (s.count n)
  | handIn {s : State} (f : CompFrame) (h : s.live) : EngineOp s (s.handIn f)
  | table {s : State} (id : Identity) (f : HeardEntry → HeardEntry)
      (h : ∀ x, x.id = id → (f x).id = id ∧ ((f x).offer.epoch = s.comp.epoch ∨ (f x).offer = x.offer)) :
      EngineOp s (s.setComp { s.comp with table := mapTable id f s.comp.table })
  | append {s : State} (src : Identity) (o : OfferFields) (h : s.live) (hnew : findEntry src s.comp.table = none)
      (hroom : s.comp.table.length < 16) (he : o.epoch = s.comp.epoch) :
      EngineOp s (s.setComp { s.comp with
        table := s.comp.table ++ [⟨src, o, none⟩], lastEntry := some s.now })
  | newEpoch {s : State} (e : Epoch) (h : s.live) : EngineOp s (s.changeEpoch e)
  | offer {s : State} (h : s.live) : EngineOp s (s.setComp { s.comp with
      state := .offer, offerDone := false, pendingRoster := none, holdDue := none
      cadenceDue := some (s.now + Config.cadence) })
  | place {s : State} (r : Roster) (h : s.comp.state = .offer)
      (hr : place s.comp.table s.comp.overflow s.comp.current s.comp.epoch s.identity = .success r) :
      EngineOp s (s.setComp { s.comp with state := .confirm, pendingRoster := some r })
  | settle {s : State} (r : Roster) (h : s.live) (hr : s.comp.pendingRoster = some r) :
      EngineOp s (s.adopt false r)
  | limp {s : State} (h : s.live) : EngineOp s s.enterLimp

/-- A sequence of primitive changes of the composition engine. -/
abbrev EngineOps : State → State → Prop := Relation.ReflTransGen EngineOp

theorem EngineOps.one {s t : State} (h : EngineOp s t) : EngineOps s t := .single h

/-! ## What a primitive change leaves -/

theorem enterLimp_state (s : State) : s.enterLimp.comp.state = .limp := by
  simp [State.enterLimp, State.adopt]

theorem adopt_state (limp : Bool) (r : Roster) (s : State) :
    (s.adopt limp r).comp.state = if limp then .limp else .settled := by
  simp [State.adopt]

theorem EngineOp.engineStep {s t : State} (h : EngineOp s t) : EngineStep s t := by
  cases h with
  | mark | table | append | offer | place => exact setComp_engineStep _ _
  | count => exact (count_cargoStep _ _).engine
  | handIn => exact handIn_engineStep _ _
  | newEpoch => exact changeEpoch_engineStep _ _
  | settle => exact adopt_engineStep _ _ _
  | limp => exact enterLimp_engineStep _

/-- A working engine goes on working. -/
theorem EngineOp.live {s t : State} (h : EngineOp s t) (hs : s.live) : t.live := by
  cases h with
  | mark c h => exact ⟨h.state ▸ hs.1, h.state ▸ hs.2⟩
  | count | handIn | table | append => exact hs
  | newEpoch => simp [State.live, changeEpoch_comp]
  | offer | place => simp [State.live]
  | settle => simp [State.live, adopt_state]
  | limp => simp [State.live, enterLimp_state]

/-- What an engine that has not begun or is halted keeps: bus controller, cargo, composition state and
epoch. -/
structure Resting (s t : State) : Prop where
  bus   : t.bus = s.bus
  cargo : t.cargo = s.cargo
  state : t.comp.state = s.comp.state
  epoch : t.comp.epoch = s.comp.epoch

theorem EngineOp.resting {s t : State} (h : EngineOp s t) (hs : ¬s.live) : Resting s t := by
  cases h with
  | mark c h => exact ⟨rfl, rfl, h.state, h.epoch⟩
  | table => exact ⟨rfl, rfl, rfl, rfl⟩
  | place r h => exact absurd (by simp [State.live, h]) hs
  | count _ h | handIn _ h | append _ _ h | newEpoch _ h | offer h | settle _ h | limp h => exact absurd h hs

theorem EngineOps.engineStep {s t : State} (h : EngineOps s t) : EngineStep s t := by
  induction h with
  | refl => exact .refl s
  | tail _ h ih => exact ih.trans h.engineStep

theorem EngineOps.live {s t : State} (h : EngineOps s t) (hs : s.live) : t.live := by
  induction h with
  | refl => exact hs
  | tail _ h ih => exact h.live ih

theorem EngineOps.resting {s t : State} (h : EngineOps s t) (hs : ¬s.live) : Resting s t := by
  induction h with
  | refl => exact ⟨rfl, rfl, rfl, rfl⟩
  | @tail b c _ h ih =>
    have hb : ¬b.live := by simpa only [State.live, ih.state] using hs
    have hc := h.resting hb
    exact ⟨hc.bus.trans ih.bus, hc.cargo.trans ih.cargo, hc.state.trans ih.state, hc.epoch.trans ih.epoch⟩

/-! ## The operations of the engine -/

variable {s : State}

theorem recordReason_ops (r : Reason) (s : State) : EngineOps s (s.recordReason r) :=
  .one (.mark _ ⟨rfl, rfl, rfl, rfl, rfl, rfl, fun h => h⟩)

theorem newRound_ops (r : Reason) (e : Epoch) (h : s.live) : EngineOps s ((s.recordReason r).changeEpoch e) :=
  (recordReason_ops r s).tail (.newEpoch e h)

theorem trigger_ops (r : Reason) (h : r = .start → s.comp.state ≠ .idle) : EngineOps s (s.trigger r) := by
  unfold State.trigger
  split
  case h_1 hs => rw [if_neg fun hr => h hr hs]
  case h_2 => exact .refl
  case h_3 hs =>
    have hlive : s.live := by simp [State.live, hs]
    split
    · exact (recordReason_ops r s).tail (.mark _ ⟨rfl, rfl, rfl, rfl, rfl, rfl, fun h => h⟩)
    · exact newRound_ops r _ hlive
  all_goals
    next hs => exact newRound_ops r _ (by simp [State.live, hs])

theorem adoptEpoch_ops (e : Epoch) (h : s.live) : EngineOps s (s.adoptEpoch e) := newRound_ops _ e h

theorem buildOffer_ops (h : s.live) : EngineOps s s.buildOffer :=
  (Relation.ReflTransGen.single (.table s.identity (fun _ => s.ownEntry) fun _ _ => ⟨rfl, .inl rfl⟩)).tail
    (.handIn _ h)

theorem enterOffer_ops (h : s.live) : EngineOps s s.enterOffer := by
  have hoffer := EngineOp.offer h
  exact (Relation.ReflTransGen.single hoffer).trans (buildOffer_ops (hoffer.live h))

theorem recordConfirm_ops (src : Identity) (d : Digest) (s : State) : EngineOps s (s.recordConfirm src d) :=
  .one (.table src _ fun _ hx => ⟨hx, .inr rfl⟩)

theorem clearConfirm_ops (src : Identity) (s : State) : EngineOps s (s.clearConfirm src) :=
  .one (.table src _ fun _ hx => ⟨hx, .inr rfl⟩)

theorem roundFailed_ops (h : s.live) : EngineOps s s.roundFailed := by
  have hmark : EngineOp s (s.setComp { s.comp with
      reason := .roundFailed, failed := min 255 (s.comp.failed + 1) }) :=
    .mark _ ⟨rfl, rfl, rfl, rfl, rfl, rfl, fun hl => ⟨Nat.min_le_left _ _, hl.2.1, hl.2.2⟩⟩
  unfold State.roundFailed
  simp only
  split
  · exact (Relation.ReflTransGen.single hmark).tail (.newEpoch _ (hmark.live h))
  · exact (Relation.ReflTransGen.single hmark).tail (.limp (hmark.live h))

theorem checkAdoption_ops (h : s.live) : EngineOps s s.checkAdoption := by
  unfold State.checkAdoption
  split
  case h_1 r hr =>
    split
    · exact .one (.settle r h hr)
    · exact .refl
  case h_2 => exact .refl

theorem ownConfirm_ops (h : s.live) : EngineOps s s.ownConfirm := by
  unfold State.ownConfirm
  split
  case h_1 => exact .refl
  case h_2 r _ =>
    have hrecord := recordConfirm_ops s.identity r.digest s
    have hhand : EngineOps s _ := hrecord.tail (.handIn (.confirm s.comp.epoch r.digest r.ownPos) (hrecord.live h))
    refine .trans (hhand.tail (.mark _ ?keeps)) (checkAdoption_ops ?live)
    case keeps => exact ⟨rfl, rfl, rfl, rfl, rfl, rfl, fun h => h⟩
    case live => exact hhand.live h

theorem tryPlacement_ops (s : State) : EngineOps s s.tryPlacement := by
  unfold State.tryPlacement
  split
  case isTrue hdue =>
    have hoffer : s.comp.state = .offer := by
      simp only [State.placementDue, Bool.and_eq_true, decide_eq_true_eq] at hdue
      exact hdue.1.1.1
    have hlive : s.live := by simp [State.live, hoffer]
    split
    case h_1 r hr =>
      have hplace := EngineOp.place r hoffer hr
      exact (Relation.ReflTransGen.single hplace).trans (ownConfirm_ops (hplace.live hlive))
    case h_5 => exact .one (.limp hlive)
    all_goals exact roundFailed_ops hlive
  case isFalse => exact .refl

theorem offerSent_ops (e : Epoch) (s : State) : EngineOps s (s.offerSent e) := by
  unfold State.offerSent
  refine .trans (.single (.mark _ ?_)) (tryPlacement_ops _)
  refine ⟨rfl, rfl, rfl, rfl, rfl, rfl, fun h => ⟨h.1, h.2.1, ?_⟩⟩
  show (if e = s.comp.epoch then min 255 (s.comp.ownSent + 1) else s.comp.ownSent) ≤ 255
  split
  · exact Nat.min_le_left _ _
  · exact h.2.2

theorem answerConfirm_ops (h : s.live) : EngineOps s s.answerConfirm := by
  unfold State.answerConfirm
  split
  · exact .one (.handIn _ h)
  · exact .refl

theorem takeOffer_ops (src : Identity) (o : OfferFields) (h : s.live) (he : o.epoch = s.comp.epoch) :
    EngineOps s (s.takeOffer src o).1 := by
  unfold State.takeOffer
  split
  case h_1 => exact .one (.table src _ fun _ _ => ⟨rfl, .inl he⟩)
  case h_2 hnew =>
    split
    case isTrue hroom => exact .one (.append src o h hnew hroom he)
    case isFalse => exact .one (.mark _ ⟨rfl, rfl, rfl, rfl, rfl, rfl, fun h => h⟩)

theorem afterOffer_ops (src : Identity) (r : TableResult) (s : State) : EngineOps s (s.afterOffer src r) := by
  unfold State.afterOffer
  split
  case h_1 | h_2 | h_3 => exact .refl
  case h_4 =>
    split
    · exact tryPlacement_ops s
    · exact .refl
  case h_5 hs =>
    split
    · exact .refl
    · exact enterOffer_ops (by simp [State.live, hs])
  case h_6 hs | h_7 hs =>
    have hlive : s.live := by simp [State.live, hs]
    split
    · exact answerConfirm_ops hlive
    · split
      · exact trigger_ops _ fun h => nomatch h
      · exact .refl

theorem changeEpoch_epoch (e : Epoch) (s : State) : (s.changeEpoch e).comp.epoch = e := by
  rw [changeEpoch_comp]

theorem eq_of_judgeEpoch_equal {h e : Epoch} (hj : judgeEpoch h e = .equal) : h = e := by
  rw [judgeEpoch_eq_equal_iff] at hj
  exact sub_eq_zero.mp (BitVec.eq_of_toNat_eq hj)

theorem receiveOffer_ops (src : Identity) (o : OfferFields) (h : s.live) :
    EngineOps s (s.receiveOffer src o) := by
  unfold State.receiveOffer
  split
  case h_1 he => exact (takeOffer_ops src o h (eq_of_judgeEpoch_equal he)).trans (afterOffer_ops _ _ _)
  case h_2 =>
    have hadopt := adoptEpoch_ops o.epoch h
    exact hadopt.trans (takeOffer_ops src o (hadopt.live h) (changeEpoch_epoch _ _).symm)
  case h_3 | h_4 => exact .one (.count _ h)

theorem disagree_ops (h : s.live) : EngineOps s s.disagree := by
  have hmark : EngineOp s (s.setComp { s.comp with disagreements := min 2 (s.comp.disagreements + 1) }) :=
    .mark _ ⟨rfl, rfl, rfl, rfl, rfl, rfl, fun hl => ⟨hl.1, Nat.min_le_left _ _, hl.2.2⟩⟩
  unfold State.disagree
  simp only
  split
  · exact (Relation.ReflTransGen.single hmark).trans (enterOffer_ops (hmark.live h))
  · exact (Relation.ReflTransGen.single hmark).trans (roundFailed_ops (hmark.live h))

theorem afterConfirm_ops (src : Identity) (d : Digest) (p : Nat) (b : Option HeardEntry) (s : State) :
    EngineOps s (s.afterConfirm src d p b) := by
  unfold State.afterConfirm
  split
  case h_1 | h_2 | h_3 | h_4 => exact .refl
  case h_5 hs =>
    have hlive : s.live := by simp [State.live, hs]
    split
    · exact .refl
    · split
      · split
        · split
          · exact checkAdoption_ops hlive
          · have hclear := clearConfirm_ops src s
            exact hclear.trans (disagree_ops (hclear.live hlive))
        · exact disagree_ops hlive
      · exact .refl
  case h_6 hs | h_7 hs =>
    have hlive : s.live := by simp [State.live, hs]
    split
    · split
      · exact .refl
      · exact answerConfirm_ops hlive
    · split
      · exact trigger_ops _ fun h => nomatch h
      · exact .refl

theorem receiveConfirm_ops (src : Identity) (e : Epoch) (d : Digest) (p : Nat) (h : s.live) :
    EngineOps s (s.receiveConfirm src e d p) := by
  unfold State.receiveConfirm
  split
  · exact (recordConfirm_ops src d s).trans (afterConfirm_ops _ _ _ _ _)
  · exact adoptEpoch_ops e h
  · exact .refl
  · exact .refl

theorem receivePresence_ops (src : Identity) (e : Epoch) (d : Digest) (h : s.live) :
    EngineOps s (s.receivePresence src e d) := by
  unfold State.receivePresence State.checkPresence
  split
  · exact adoptEpoch_ops e h
  · repeat' split
    all_goals first
      | exact .refl
      | exact .one (.count _ h)
      | exact trigger_ops _ fun h => nomatch h

theorem deliverComp_ops (f : Frame) (s : State) : EngineOps s (s.deliverComp f) := by
  unfold State.deliverComp
  split
  case isTrue => exact .refl
  case isFalse hs =>
    simp only [not_or] at hs
    have hlive : s.live := ⟨hs.1, hs.2.1⟩
    have hnote : EngineOps s (s.noteHeard f.source) :=
      .one (.mark _ ⟨rfl, rfl, rfl, rfl, rfl, rfl, fun h => h⟩)
    split
    · exact .refl
    · exact hnote.trans (receiveOffer_ops _ _ (hnote.live hlive))
    · exact hnote.trans (receiveConfirm_ops _ _ _ _ (hnote.live hlive))
    · exact hnote.trans (receivePresence_ops _ _ _ (hnote.live hlive))

end Sys2Proof.Machine
end

section
/-! Every command and event but CONFIGURE, RESTART and a hardware reset as a sequence of changes of the composition engine, with
changes between them that the engine does not see. -/

namespace Sys2Proof.Machine

/-! ## Changes outside the engine -/

/-- The grade monitor's counts and ceiling lie in their ranges (R114, R115, R117). -/
def GradeMonitor.LevelsOk (g : GradeMonitor) : Prop :=
  g.errors ≤ 255 ∧ g.upRun ≤ 29 ∧ g.ceiling.code ≤ g.limit.code

/-- A change that the composition engine does not see: its state and the image are kept, no outcome loss is taken back,
and the grade monitor's levels stay in their ranges. -/
structure Outside (s t : State) : Prop where
  comp  : t.comp = s.comp
  image : t.port.image = s.port.image
  loss  : s.cargo.outcomeLoss.toNat ≤ t.cargo.outcomeLoss.toNat
  grade : s.grade.LevelsOk → t.grade.LevelsOk

theorem Outside.refl (s : State) : Outside s s := ⟨rfl, rfl, Nat.le_refl _, fun h => h⟩

theorem Outside.trans {s t u : State} (h : Outside s t) (h' : Outside t u) : Outside s u :=
  ⟨h'.comp.trans h.comp, h'.image.trans h.image, Nat.le_trans h.loss h'.loss, fun hg => h'.grade (h.grade hg)⟩

variable {s t : State}

/-- A change of clock, chain units, bus and port, with the image kept. -/
theorem Outside.of_eq (hcomp : t.comp = s.comp) (hcargo : t.cargo = s.cargo) (hgrade : t.grade = s.grade)
    (himage : t.port.image = s.port.image) : Outside s t :=
  ⟨hcomp, himage, by rw [hcargo], by rw [hgrade]; exact fun h => h⟩

theorem setBus_outside (b : Bus) (s : State) : Outside s (s.setBus b) := .of_eq rfl rfl rfl rfl

theorem setPort_outside {p : Port} (h : p.image = s.port.image) : Outside s (s.setPort p) := .of_eq rfl rfl rfl h

theorem setCargo_outside {c : Cargo} (h : c.outcomeLoss = s.cargo.outcomeLoss) : Outside s (s.setCargo c) :=
  ⟨rfl, rfl, Nat.le_of_eq (congrArg BitVec.toNat h.symm), fun hg => hg⟩

theorem setGrade_outside {g : GradeMonitor} (h : s.grade.LevelsOk → g.LevelsOk) : Outside s (s.setGrade g) :=
  ⟨rfl, rfl, Nat.le_refl _, h⟩

theorem notify_outside (n : Notice) (s : State) : Outside s (s.notify n) := .of_eq rfl rfl rfl rfl

theorem notifyIf_outside (c : Bool) (n : Notice) (s : State) : Outside s (s.notifyIf c n) := by
  cases c
  · exact .refl s
  · exact notify_outside n s

theorem count_outside (n : CounterName) (s : State) : Outside s (s.count n) := .of_eq rfl rfl rfl rfl

theorem reportError_outside (s : State) : Outside s s.reportError :=
  ⟨rfl, rfl, Nat.le_refl _, fun h => ⟨Nat.min_le_left _ _, h.2⟩⟩

theorem advanceTo_outside (t : Ticks) (s : State) : Outside s (s.advanceTo t) := .of_eq rfl rfl rfl rfl

theorem advanceToDue_outside (t : Option Ticks) (s : State) : Outside s (s.advanceToDue t) := by
  cases t
  · exact .refl s
  · exact advanceTo_outside _ s

theorem setChain_outside (e : End) (u : ChainUnit) (s : State) : Outside s (s.setChain e u) :=
  .of_eq (by simp) (by simp) (by simp) (by simp)

theorem syncDrive_outside (e : End) (s : State) : Outside s (s.syncDrive e) := by
  unfold State.syncDrive
  simp only
  split
  · exact setChain_outside _ _ _
  · exact setChain_outside _ _ _
  · exact .refl s

/-! The cargo router. -/

theorem post_outside (ticket : Nat) (k : OutcomeKind) (p : Option Nat) (s : State) :
    Outside s (s.post ticket k p) := by
  unfold State.post
  split
  · exact (setCargo_outside (by rfl)).trans (notify_outside _ _)
  · exact ⟨rfl, rfl, satInc_le _, fun h => h⟩

theorem mapEntry_outside (ticket : Nat) (f : TxEntry → TxEntry) (s : State) : Outside s (s.mapEntry ticket f) :=
  setCargo_outside (by rfl)

theorem removeEntry_outside (ticket : Nat) (k : OutcomeKind) (p : Option Nat) (s : State) :
    Outside s (s.removeEntry ticket k p) :=
  (show Outside s (s.dropEntry ticket) from setCargo_outside (by rfl)).trans (post_outside _ _ _ _)

theorem renameOne_outside (previous : Option Roster) (current : Roster) (s : State) (x : TxEntry) :
    Outside s (s.renameOne previous current x) := by
  unfold State.renameOne
  split
  · exact mapEntry_outside _ _ _
  · split
    · exact mapEntry_outside _ _ _
    · exact removeEntry_outside _ _ _ _

theorem renamePass_outside (s : State) : Outside s s.renamePass := by
  unfold State.renamePass
  split
  · exact .refl s
  · exact foldl_within Outside.refl Outside.trans _ (fun s x => renameOne_outside _ _ s x) _ _

theorem returnEntry_outside (ticket : Nat) (s : State) : Outside s (s.returnEntry ticket) := by
  unfold State.returnEntry
  split
  · exact .refl s
  · simp only
    split
    · exact removeEntry_outside _ _ _ _
    · split
      · split
        · exact mapEntry_outside _ _ _
        · split
          · exact mapEntry_outside _ _ _
          · exact removeEntry_outside _ _ _ _
      · exact mapEntry_outside _ _ _

theorem strikeEntry_outside (ticket : Nat) (s : State) : Outside s (s.strikeEntry ticket) := by
  unfold State.strikeEntry
  split
  · exact .refl s
  · split
    · exact removeEntry_outside _ _ _ _
    · exact (mapEntry_outside _ _ _).trans (returnEntry_outside _ _)

theorem chooseFrom_outside (cur : Roster) (l : List TxEntry) (s : State) :
    Outside s (State.chooseFrom cur l s).1 := by
  induction l generalizing s with
  | nil => exact .refl s
  | cons x xs ih =>
    unfold State.chooseFrom
    split
    · exact (removeEntry_outside _ _ _ _).trans (ih _)
    · exact .refl s

theorem headCandidate_outside (s : State) : Outside s s.headCandidate.1 := by
  unfold State.headCandidate
  split
  · split
    · exact chooseFrom_outside _ _ _
    · exact .refl s
  · exact .refl s

theorem flush_outside (s : State) : Outside s s.flush :=
  foldl_within Outside.refl Outside.trans _ (fun s _ => removeEntry_outside _ _ _ s) _ _

theorem storeArrival_outside (x : RxEntry) (s : State) : Outside s (s.storeArrival x) := by
  unfold State.storeArrival
  split
  · exact (setCargo_outside (by rfl)).trans (notify_outside _ _)
  · exact (notify_outside _ _).trans (count_outside _ _)

theorem deliverCargo_outside (f : Frame) (s : State) : Outside s (s.deliverCargo f) := by
  unfold State.deliverCargo
  split
  · exact .refl s
  · split
    · exact count_outside _ _
    · simp only
      repeat' split
      all_goals first
        | exact storeArrival_outside _ _
        | exact .refl s

/-! Own frames. -/

theorem select_outside (s : State) : Outside s s.select.1 := by
  unfold State.select
  split
  · exact .refl s
  · split
    · exact .refl s
    · exact headCandidate_outside s

theorem startFrame_outside (x : Selection) (s : State) : Outside s (s.startFrame x) := by
  unfold State.startFrame
  split
  · split
    · exact .of_eq rfl rfl rfl rfl
    · exact .refl s
  · split
    · exact (mapEntry_outside _ _ _).trans (setBus_outside _ _)
    · exact .refl s

theorem atIdle_outside (s : State) : Outside s s.atIdle := by
  unfold State.atIdle
  simp only
  split
  · exact (select_outside s).trans (setBus_outside _ _)
  · split
    · exact (select_outside s).trans (startFrame_outside _ _)
    · exact (select_outside s).trans (setBus_outside _ _)

theorem sendWaiting_outside (s : State) : Outside s s.sendWaiting := by
  unfold State.sendWaiting
  split
  · exact atIdle_outside s
  · exact .refl s

theorem handBack_outside (f : CompFrame) (s : State) : Outside s (s.handBack f) := by
  unfold State.handBack
  split
  · exact .refl s
  · exact setBus_outside _ _

theorem giveBack_outside (o : Origin) (s : State) : Outside s (s.giveBack o) := by
  unfold State.giveBack
  split
  · exact handBack_outside _ _
  · exact returnEntry_outside _ _

theorem giveBackStruck_outside (o : Origin) (s : State) : Outside s (s.giveBackStruck o) := by
  unfold State.giveBackStruck
  split
  · exact handBack_outside _ _
  · exact strikeEntry_outside _ _

theorem awaitIdle_outside (f : Frame) (k : Nat) (s : State) : Outside s (s.awaitIdle f k) := by
  unfold State.awaitIdle
  split <;> exact setBus_outside _ _

theorem countStrike_outside (s : State) : Outside s s.countStrike :=
  (setBus_outside _ _).trans (reportError_outside _)

/-! The local port's transactions. -/

theorem csnFalls_outside (s : State) : Outside s s.csnFalls := by
  unfold State.csnFalls
  split
  · exact .refl s
  · exact .of_eq rfl rfl rfl rfl

theorem clockOut_outside (n : Nat) (data : List Byte) (s : State) : Outside s (s.clockOut n data) :=
  .of_eq rfl rfl rfl rfl

/-! ## The changes of the whole machine -/

/-- One change of the machine. `awake` stands for what is known of the state in which the command is taken: where it
holds, nothing halts an engine that has not begun. -/
inductive Op (awake : Prop) : State → State → Prop
  | engine {s t : State} (h : EngineOp s t) : Op awake s t
  | outside {s t : State} (h : Outside s t) : Op awake s t
  | halt {s : State} (h : awake → s.comp.state ≠ .idle) : Op awake s s.halt
  | start {s : State} (h : s.comp.state = .idle) (e : Epoch) : Op awake s (s.changeEpoch e)

/-- A sequence of changes of the machine. -/
abbrev Ops (awake : Prop) : State → State → Prop := Relation.ReflTransGen (Op awake)

variable {awake : Prop} {u : State}

theorem EngineOps.ops (h : EngineOps s t) : Ops awake s t := Relation.ReflTransGen.mono (fun _ _ => .engine) _ _ h

theorem Outside.ops (h : Outside s t) : Ops awake s t := .single (.outside h)

/-- No change takes an engine that has begun back to IDLE. -/
theorem Op.begun (h : Op awake s t) (hs : s.comp.state ≠ .idle) : t.comp.state ≠ .idle := by
  cases h with
  | engine h =>
    by_cases hl : s.live
    · exact (h.live hl).1
    · exact (h.resting hl).state ▸ hs
  | outside h => exact h.comp ▸ hs
  | halt => simp [State.halt]
  | start h => exact absurd h hs

theorem Ops.begun (h : Ops awake s t) (hs : s.comp.state ≠ .idle) : t.comp.state ≠ .idle := by
  induction h with
  | refl => exact hs
  | tail _ h ih => exact h.begun ih

theorem anyTrigger_ops (r : Reason) (s : State) : Ops awake s (s.trigger r) := by
  by_cases hr : r = .start
  · by_cases hs : s.comp.state = .idle
    · have hstart : s.trigger r = (s.recordReason r).raiseEpoch := by simp [State.trigger, hs, hr]
      rw [hstart]
      exact (recordReason_ops r s).ops.tail (.start (s := s.recordReason r) hs _)
    · exact (trigger_ops r fun _ => hs).ops
  · exact (trigger_ops r fun h => absurd h hr).ops

/-! ## Receptions and the stop -/

theorem stop_ops (h : awake → s.comp.state ≠ .idle) : Ops awake s s.stop := by
  unfold State.stop
  dsimp only
  refine .trans (.tail ?_ (.halt ?_)) (flush_outside _).ops
  · exact (((setBus_outside _ _).trans (setPort_outside (by rfl))).trans (notify_outside _ _)).ops
  · exact h

theorem restOrStop_ops (h : awake → s.comp.state ≠ .idle) : Ops awake s s.restOrStop := by
  unfold State.restOrStop
  split
  · exact stop_ops h
  · exact ((setBus_outside _ _).trans (notify_outside _ _)).ops

theorem clash_ops (h : awake → s.comp.state ≠ .idle) : Ops awake s s.clash := by
  unfold State.clash
  split
  · exact .refl
  · split
    · exact stop_ops h
    · exact ((setBus_outside _ _).trans (notify_outside _ _)).ops.trans (anyTrigger_ops _ _)

theorem deliver_ops (f : Frame) (h : awake → s.comp.state ≠ .idle) : Ops awake s (s.deliver f) := by
  unfold State.deliver
  split
  · exact clash_ops h
  · split
    · exact (deliverComp_ops f s).ops
    · exact (deliverCargo_outside f s).ops

theorem takeReception_ops (r : RxResult) (h : awake → s.comp.state ≠ .idle) :
    Ops awake s (s.takeReception r) := by
  unfold State.takeReception
  split
  · exact (setBus_outside _ _).ops
  · exact ((setBus_outside _ _).trans (count_outside _ _)).ops
  · exact (((setBus_outside _ _).trans (count_outside _ _)).trans (reportError_outside _)).ops
  · exact (setBus_outside _ _).ops.trans (deliver_ops _ h)

theorem receive_ops (r : Rx) (bits : List Bool) (h : awake → s.comp.state ≠ .idle) :
    Ops awake s (s.receive r bits) :=
  (setBus_outside _ _).ops.trans (takeReception_ops _ h)

theorem idleReception_ops (h : awake → s.comp.state ≠ .idle ∨ s.bus.rx = none) : Ops awake s s.idleReception := by
  unfold State.idleReception
  split
  case h_1 r hr => exact takeReception_ops _ fun ha => (h ha).resolve_right (by simp [hr])
  case h_2 => exact .refl

theorem struck_ops (o : Origin) (h : awake → s.comp.state ≠ .idle) : Ops awake s (s.struck o) := by
  have hback : Outside s (s.stopDriving.countStrike.giveBackStruck o) :=
    ((setBus_outside _ _).trans (countStrike_outside _)).trans (giveBackStruck_outside _ _)
  unfold State.struck
  simp only
  split
  · exact hback.ops.trans (restOrStop_ops fun ha => hback.comp ▸ h ha)
  · exact hback.ops

theorem reportCompletion_ops (o : Origin) (s : State) : Ops awake s (s.reportCompletion o) := by
  unfold State.reportCompletion
  split
  · exact (offerSent_ops _ s).ops
  · exact .refl
  · exact .refl
  · exact (removeEntry_outside _ _ _ _).ops

/-! ## Chain units -/

theorem chainChanged_ops (e : End) (before : Triple) (s : State) : Ops awake s (s.chainChanged e before) := by
  unfold State.chainChanged
  simp only
  split
  · exact .refl
  · exact (((setChain_outside _ _ _).trans (notify_outside _ _)).trans (notifyIf_outside _ _ _)).ops.trans
      (anyTrigger_ops _ _)

theorem changeUnit_ops (e : End) (f : ChainUnit → ChainUnit) (s : State) : Ops awake s (s.changeUnit e f) := by
  unfold State.changeUnit
  exact (((setChain_outside _ _ _).trans (syncDrive_outside _ _)).trans (notifyIf_outside _ _ _)).ops.trans
    (chainChanged_ops _ _ _)

theorem decoderEvent_ops (e : End) (f : Decoder → Decoder) (s : State) : Ops awake s (s.decoderEvent e f) := by
  unfold State.decoderEvent
  split
  · exact changeUnit_ops _ _ _
  · exact .refl

/-! ## The local port -/

theorem transfer_ops (x : Transfer) {run : List Bool → State → State} (h : ∀ bits, Ops awake s (run bits s)) :
    Ops awake s (s.transfer x run) := by
  unfold State.transfer
  split
  · exact (csnFalls_outside s).ops
  · split
    · exact h _
    · exact .refl
  · split
    · exact (clockOut_outside _ _ s).ops
    · exact .refl

theorem takeCommand_ops (x : Transfer) {run : List Byte → State → State × List Byte}
    (h : ∀ p t, Ops awake t (run p t).1) : Ops awake s (s.takeCommand x run) := by
  refine transfer_ops x fun bits => ?_
  refine Relation.ReflTransGen.trans (clockOut_outside (8 + bits.length) [] s).ops ?_
  unfold State.endCommand
  simp only
  split
  · exact (setPort_outside (by rfl)).ops
  · exact (h _ _).trans (setPort_outside (by rfl)).ops

theorem GradeMonitor.begin_levels (t : Ticks) (g : GradeMonitor) : (g.begin t).LevelsOk :=
  ⟨Nat.zero_le _, Nat.zero_le _, Nat.le_refl _⟩

theorem releasedAtStart_ops (e : End) (s : State) : Ops awake s (s.releasedAtStart e) := by
  unfold State.releasedAtStart
  split
  · exact chainChanged_ops _ _ _
  · exact .refl

theorem begin_ops (s : State) : Ops awake s s.begin := by
  unfold State.begin
  dsimp only
  refine .trans (.trans (.trans ?_ (anyTrigger_ops _ _)) (releasedAtStart_ops _ _)) (releasedAtStart_ops _ _)
  refine Outside.ops (.trans (.trans (.trans (.trans (.trans (.trans (setPort_outside ?_) (setChain_outside _ _ _))
    (setChain_outside _ _ _)) (syncDrive_outside _ _)) (syncDrive_outside _ _)) (setBus_outside _ _))
    (setGrade_outside fun _ => GradeMonitor.begin_levels _ _))
  rfl

theorem startCommand_ops (p : List Byte) (s : State) : Ops awake s (s.startCommand p).1 := by
  unfold State.startCommand
  repeat' split
  · exact .refl
  · exact .refl
  · exact begin_ops s

theorem setCab_ops (x : CabSetting) (s : State) : Ops awake s (s.setCab x) := by
  unfold State.setCab
  split
  · exact .refl
  · exact (setPort_outside (by rfl)).ops.trans (anyTrigger_ops _ _)

theorem setCabCommand_ops (p : List Byte) (s : State) : Ops awake s (s.setCabCommand p).1 := by
  unfold State.setCabCommand
  split
  · split
    · split
      · split
        · exact setCab_ops _ s
        · exact .refl
      · exact .refl
    · exact .refl
  · exact .refl

theorem isolate_ops (e : End) (on : Bool) (s : State) : Ops awake s (s.isolate e on) := by
  unfold State.isolate
  exact changeUnit_ops _ _ _

theorem isolateCommand_ops (p : List Byte) (s : State) : Ops awake s (s.isolateCommand p).1 := by
  unfold State.isolateCommand
  split
  · split
    · split
      · exact .refl
      · split
        · exact isolate_ops _ false s
        · split
          · exact isolate_ops _ true s
          · exact .refl
    · exact .refl
  · exact .refl

theorem recomposeCommand_ops (p : List Byte) (s : State) : Ops awake s (s.recomposeCommand p).1 := by
  unfold State.recomposeCommand
  split
  · exact anyTrigger_ops _ _
  · exact .refl

theorem submitCommand_ops (p : List Byte) (s : State) : Ops awake s (s.submitCommand p).1 := by
  unfold State.submitCommand State.submitChecks
  repeat' split
  all_goals first
    | exact .refl
    | exact (setCargo_outside (by rfl)).ops

theorem withdrawCommand_ops (p : List Byte) (s : State) : Ops awake s (s.withdrawCommand p).1 := by
  unfold State.withdrawCommand State.withdrawTicket
  repeat' split
  all_goals first
    | exact .refl
    | exact (removeEntry_outside _ _ _ _).ops

theorem takeArrival_ops (p : List Byte) (s : State) : Ops awake s (s.takeArrival p).1 := by
  unfold State.takeArrival
  repeat' split
  all_goals first
    | exact .refl
    | exact (setCargo_outside (by rfl)).ops

theorem readOutcomesCommand_ops (p : List Byte) (s : State) : Ops awake s (s.readOutcomesCommand p).1 := by
  unfold State.readOutcomesCommand
  repeat' split
  all_goals first
    | exact .refl
    | exact (setCargo_outside (by rfl)).ops

theorem readRosterCommand_ops (p : List Byte) (s : State) : Ops awake s (s.readRosterCommand p).1 := by
  unfold State.readRosterCommand State.answerRoster
  repeat' split
  all_goals exact .refl

end Sys2Proof.Machine
end

section
/-! The events of the table as sequences of the machine's changes, and from them all commands but CONFIGURE,
RESTART and a hardware reset. -/

namespace Sys2Proof.Machine

variable {s t : State} {awake : Prop}

/-! ## What Modes says of an own frame and of a reception -/

theorem Modes.begun (h : Modes s) (hctrl : s.bus.ctrl ≠ .off) : s.comp.state ≠ .idle :=
  fun hidle => hctrl (h.offIff.mpr (h.idleIff.mp hidle))

theorem Modes.begun_of_tx (h : Modes s) (htx : s.bus.tx.isSome) : s.comp.state ≠ .idle := by
  have hctrl := h.txIff.mp htx
  exact h.begun (by simp [hctrl])

theorem Modes.begun_of_rx (h : Modes s) (hrx : s.bus.rx.isSome) : s.comp.state ≠ .idle := by
  refine h.begun ?_
  obtain hctrl | hctrl | hctrl := h.rx hrx <;> simp [hctrl]

/-! ## The events of the bus controller -/

theorem execBusIdle_ops (hm : awake → Modes s) (h : execBusIdle s = .next t) : Ops awake s t := by
  unfold execBusIdle at h
  split at h
  · obtain rfl := Host.Outcome.next.inj h
    refine .trans (.trans (.trans (advanceToDue_outside _ _).ops (idleReception_ops fun ha => ?_))
      (setBus_outside _ _).ops) (atIdle_outside _).ops
    have hcomp := (advanceToDue_outside s.bus.idleDue s).comp
    have hbus : (s.advanceToDue s.bus.idleDue).bus = s.bus := by cases s.bus.idleDue <;> rfl
    rw [hcomp, hbus]
    cases hrx : s.bus.rx with
    | none => exact .inr rfl
    | some r => exact .inl ((hm ha).begun_of_rx (by simp [hrx]))
  · obtain rfl := Host.Outcome.next.inj h
    exact .refl

theorem execStartBitSeen_outside (h : execStartBitSeen s = .next t) : Outside s t := by
  unfold execStartBitSeen at h
  split at h
  · split at h <;> obtain rfl := Host.Outcome.next.inj h <;> exact setBus_outside _ _
  · obtain rfl := Host.Outcome.next.inj h
    exact .refl s

theorem execFrameReceived_ops (bits : List Bool) (hm : awake → Modes s)
    (h : execFrameReceived bits s = .next t) : Ops awake s t := by
  unfold execFrameReceived at h
  split at h
  case h_1 r hrx =>
    obtain rfl := Host.Outcome.next.inj h
    exact receive_ops _ _ fun ha => (hm ha).begun_of_rx (by simp [hrx])
  case h_2 =>
    obtain rfl := Host.Outcome.next.inj h
    exact .refl

theorem execLostArbitration_ops (bit : Nat) (hm : awake → Modes s)
    (h : execLostArbitration bit s = .next t) : Ops awake s t := by
  unfold execLostArbitration at h
  split at h
  case h_1 =>
    obtain rfl := Host.Outcome.next.inj h
    exact .refl
  case h_2 x htx =>
    split at h
    · obtain rfl := Host.Outcome.next.inj h
      have hback : Outside s (s.stopDriving.giveBack x.origin).beginReceiving :=
        ((setBus_outside _ _).trans (giveBack_outside _ _)).trans (setBus_outside _ _)
      exact hback.ops.trans (receive_ops _ _ fun ha => hback.comp ▸ (hm ha).begun_of_tx (by simp [htx]))
    · obtain rfl := Host.Outcome.next.inj h
      exact .refl

theorem execDominantReadRecessive_outside (bit : Nat)
    (h : execDominantReadRecessive s bit = .next t) : Outside s t := by
  unfold execDominantReadRecessive at h
  split at h
  · obtain rfl := Host.Outcome.next.inj h
    exact .refl s
  · split at h
    · obtain rfl := Host.Outcome.next.inj h
      exact ((setBus_outside _ _).trans (giveBack_outside _ _)).trans (awaitIdle_outside _ _ _)
    · obtain rfl := Host.Outcome.next.inj h
      exact .refl s

theorem execStrike_ops (bit : Nat) (hm : awake → Modes s) (h : execStrike bit s = .next t) : Ops awake s t := by
  unfold execStrike at h
  split at h
  case h_1 =>
    obtain rfl := Host.Outcome.next.inj h
    exact .refl
  case h_2 x htx =>
    have hbegun (ha : awake) : s.comp.state ≠ .idle := (hm ha).begun_of_tx (by simp [htx])
    have hstruck : Ops awake s (s.struck x.origin) := struck_ops _ hbegun
    split at h
    · dsimp only at h
      split at h
      · obtain rfl := Host.Outcome.next.inj h
        exact (hstruck.trans (setBus_outside _ _).ops).trans
          (receive_ops _ _ fun ha => hstruck.begun (hbegun ha))
      · obtain rfl := Host.Outcome.next.inj h
        exact hstruck.trans (awaitIdle_outside _ _ _).ops
    · obtain rfl := Host.Outcome.next.inj h
      exact .refl

theorem execCleanCompletion_ops (h : execCleanCompletion s = .next t) : Ops awake s t := by
  unfold execCleanCompletion at h
  split at h
  · obtain rfl := Host.Outcome.next.inj h
    exact .refl
  · obtain rfl := Host.Outcome.next.inj h
    exact ((setBus_outside _ _).trans (setBus_outside _ _)).ops.trans (reportCompletion_ops _ _)

theorem execRestTimerExpiry_outside (h : execRestTimerExpiry s = .next t) : Outside s t := by
  unfold execRestTimerExpiry at h
  split at h
  · obtain rfl := Host.Outcome.next.inj h
    exact .refl s
  · split at h <;> obtain rfl := Host.Outcome.next.inj h
    · exact (advanceTo_outside _ _).trans (setBus_outside _ _)
    · exact .refl s

theorem execIntermissionPassed_outside (h : execIntermissionPassed s = .next t) : Outside s t := by
  unfold execIntermissionPassed at h
  split at h
  · obtain rfl := Host.Outcome.next.inj h
    exact .refl s
  · dsimp only at h
    split at h <;> obtain rfl := Host.Outcome.next.inj h
    · exact ((advanceTo_outside _ _).trans (setBus_outside _ _)).trans (atIdle_outside _)
    · exact (advanceTo_outside _ _).trans (setBus_outside _ _)

/-! ## The events of the chain units -/

theorem execPeriodBoundary_outside (e : End) (h : execPeriodBoundary e s = .next t) : Outside s t := by
  unfold execPeriodBoundary at h
  dsimp only at h
  split at h <;> obtain rfl := Host.Outcome.next.inj h
  · exact .refl s
  · exact (advanceTo_outside _ _).trans (setChain_outside _ _ _)

theorem execCompletedPeriod_ops (e : End) (p k : Nat) (h : execCompletedPeriod e p k s = .next t) :
    Ops awake s t := by
  unfold execCompletedPeriod at h
  split at h <;> obtain rfl := Host.Outcome.next.inj h
  · exact (advanceTo_outside _ _).ops.trans (decoderEvent_ops _ _ _)
  · exact .refl

theorem execLoss_ops (e : End) (h : execLoss e s = .next t) : Ops awake s t := by
  unfold execLoss at h
  split at h <;> obtain rfl := Host.Outcome.next.inj h
  · exact (advanceTo_outside _ _).ops.trans (decoderEvent_ops _ _ _)
  · exact .refl

theorem execPartingSensed_ops (e : End) (h : execPartingSensed e s = .next t) : Ops awake s t := by
  unfold execPartingSensed at h
  split at h <;> obtain rfl := Host.Outcome.next.inj h
  · exact (advanceTo_outside _ _).ops.trans (decoderEvent_ops _ _ _)
  · exact .refl

theorem execStuckHigh_ops (e : End) (h : execStuckHigh e s = .next t) : Ops awake s t := by
  unfold execStuckHigh at h
  split at h
  · obtain rfl := Host.Outcome.next.inj h
    exact .refl
  · split at h <;> obtain rfl := Host.Outcome.next.inj h
    · exact (advanceTo_outside _ _).ops.trans (decoderEvent_ops _ _ _)
    · exact .refl

/-! ## The timers of the composition engine -/

theorem execQuietHoldEnd_ops (h : execQuietHoldEnd s = .next t) : Ops awake s t := by
  unfold execQuietHoldEnd at h
  split at h
  · obtain rfl := Host.Outcome.next.inj h
    exact .refl
  · split at h
    case isTrue hq =>
      obtain rfl := Host.Outcome.next.inj h
      exact ((advanceTo_outside _ _).ops.trans (enterOffer_ops (by simp [State.live, hq])).ops).trans
        (sendWaiting_outside _).ops
    case isFalse =>
      obtain rfl := Host.Outcome.next.inj h
      exact .refl

theorem restartCadence_outside_mark (s : State) : EngineOps s s.restartCadence :=
  .one (.mark _ ⟨rfl, rfl, rfl, rfl, rfl, rfl, fun h => h⟩)

theorem execCadenceTimer_ops (h : execCadenceTimer s = .next t) : Ops awake s t := by
  unfold execCadenceTimer at h
  split at h
  · obtain rfl := Host.Outcome.next.inj h
    exact .refl
  · split at h
    case isTrue ho =>
      obtain rfl := Host.Outcome.next.inj h
      refine (((advanceTo_outside _ _).ops.trans (restartCadence_outside_mark _).ops).trans
        (buildOffer_ops ?_).ops).trans (sendWaiting_outside _).ops
      simp [State.restartCadence, State.live, ho]
    case isFalse =>
      split at h
      case isTrue hc =>
        obtain rfl := Host.Outcome.next.inj h
        exact ((advanceTo_outside _ _).ops.trans (ownConfirm_ops (by simp [State.live, hc])).ops).trans
          (sendWaiting_outside _).ops
      case isFalse =>
        obtain rfl := Host.Outcome.next.inj h
        exact .refl

theorem execLastEntryTimeout_ops (h : execLastEntryTimeout s = .next t) : Ops awake s t := by
  unfold execLastEntryTimeout at h
  split at h
  · obtain rfl := Host.Outcome.next.inj h
    exact .refl
  · split at h <;> obtain rfl := Host.Outcome.next.inj h
    · exact ((advanceTo_outside _ _).ops.trans (tryPlacement_ops _).ops).trans (sendWaiting_outside _).ops
    · exact .refl

theorem live_of_roundRunning (h : s.roundRunning = true) : s.live := by
  unfold State.roundRunning at h
  split at h <;> simp_all [State.live]

theorem live_of_gateOpen (h : s.gateOpen = true) : s.live := by
  simp only [State.gateOpen, State.roundKind, Bool.or_eq_true, decide_eq_true_eq] at h
  obtain (h | h) | h := h
  · simp [State.live, h]
  · simp [State.live, h]
  · refine live_of_roundRunning ?_
    by_contra hr
    simp [hr] at h

theorem execRoundDeadline_ops (h : execRoundDeadline s = .next t) : Ops awake s t := by
  unfold execRoundDeadline at h
  split at h
  · obtain rfl := Host.Outcome.next.inj h
    exact .refl
  · split at h
    case isTrue hr =>
      obtain rfl := Host.Outcome.next.inj h
      exact (advanceTo_outside _ _).ops.trans (roundFailed_ops (s := s.advanceTo _) (live_of_roundRunning hr)).ops
    case isFalse =>
      obtain rfl := Host.Outcome.next.inj h
      exact .refl

theorem retry_ops (s : State) : EngineOps s s.retry := by
  unfold State.retry
  refine .trans (.single (.mark _ ?_)) (trigger_ops _ fun h => nomatch h)
  exact ⟨rfl, rfl, rfl, rfl, rfl, rfl, fun h => h⟩

theorem execLimpRetry_ops (h : execLimpRetry s = .next t) : Ops awake s t := by
  unfold execLimpRetry at h
  split at h
  · split at h <;> obtain rfl := Host.Outcome.next.inj h
    · exact (advanceTo_outside _ _).ops.trans (retry_ops _).ops
    · exact .refl
  · split at h <;> obtain rfl := Host.Outcome.next.inj h
    · exact (retry_ops _).ops
    · exact .refl

theorem buildPresence_ops (r : Roster) (point : Ticks) (h : s.live) : EngineOps s (s.buildPresence r point) := by
  unfold State.buildPresence
  refine .tail (.single (.mark _ ?_)) (.handIn _ h)
  exact ⟨rfl, rfl, rfl, rfl, rfl, rfl, fun h => h⟩

theorem execPresenceSchedulePoint_ops (h : execPresenceSchedulePoint s = .next t) : Ops awake s t := by
  unfold execPresenceSchedulePoint at h
  split at h
  · split at h
    case isTrue hd =>
      obtain rfl := Host.Outcome.next.inj h
      exact ((advanceTo_outside _ _).ops.trans (buildPresence_ops (s := s.advanceTo _) _ _ (live_of_gateOpen hd)).ops).trans
        (sendWaiting_outside _).ops
    case isFalse =>
      obtain rfl := Host.Outcome.next.inj h
      exact .refl
  · obtain rfl := Host.Outcome.next.inj h
    exact .refl

theorem setAside_ops (id : Identity) (s : State) : EngineOps s (s.setAside id) :=
  .one (.mark _ ⟨rfl, rfl, rfl, rfl, rfl, rfl, fun h => h⟩)

theorem execMemberLost_ops (id : Identity) (h : execMemberLost id s = .next t) : Ops awake s t := by
  unfold execMemberLost at h
  split at h
  · obtain rfl := Host.Outcome.next.inj h
    exact .refl
  · split at h <;> obtain rfl := Host.Outcome.next.inj h
    · exact ((advanceTo_outside _ _).ops.trans (setAside_ops _ _).ops).trans (anyTrigger_ops _ _)
    · exact .refl

/-! ## Grade windows and lifetimes -/

theorem Grade.code_down_le (g : Grade) : g.down.code ≤ g.code := by cases g <;> decide

theorem Grade.code_up_le {g l : Grade} (h : g.code < l.code) : g.up.code ≤ l.code := by
  cases g <;> cases l <;> simp_all [Grade.up, Grade.code]

theorem GradeMonitor.endWindow_levels (t : Ticks) {g : GradeMonitor} (h : g.LevelsOk) :
    (g.endWindow t).LevelsOk := by
  obtain ⟨-, hrun, hceiling⟩ := h
  refine ⟨Nat.zero_le _, ?_, ?_⟩
  · show g.judgedRun ≤ 29
    unfold GradeMonitor.judgedRun
    split_ifs <;> omega
  · show g.judgedCeiling.code ≤ g.limit.code
    unfold GradeMonitor.judgedCeiling
    split_ifs with _ _ _ hbelow
    · exact Nat.le_trans (Grade.code_down_le _) hceiling
    · exact hceiling
    · exact Grade.code_up_le hbelow
    · exact hceiling
    · exact hceiling

theorem execWindowEnd_ops (h : execWindowEnd s = .next t) : Ops awake s t := by
  unfold execWindowEnd at h
  split at h
  · obtain rfl := Host.Outcome.next.inj h
    exact .refl
  · dsimp only at h
    have hended (d : Ticks) : Outside s ((s.advanceTo d).setGrade (s.grade.endWindow d)) :=
      (advanceTo_outside d s).trans (setGrade_outside (GradeMonitor.endWindow_levels d))
    split at h <;> obtain rfl := Host.Outcome.next.inj h
    · exact (hended _).ops
    · exact ((hended _).trans (notify_outside _ _)).ops.trans (anyTrigger_ops _ _)

theorem execLifetimeExpiry_outside (ticket : Nat) (h : execLifetimeExpiry ticket s = .next t) : Outside s t := by
  unfold execLifetimeExpiry at h
  split at h
  · obtain rfl := Host.Outcome.next.inj h
    exact .refl s
  · split at h
    · obtain rfl := Host.Outcome.next.inj h
      exact .refl s
    · split at h <;> obtain rfl := Host.Outcome.next.inj h
      · exact (advanceTo_outside _ _).trans (mapEntry_outside _ _ _)
      · exact (advanceTo_outside _ _).trans (removeEntry_outside _ _ _ _)

/-! ## All commands and events -/

/-- Every command and event but CONFIGURE, RESTART and a hardware reset. -/
def Ordinary : Instr → Prop
  | .configure _ | .restart _ | .hardwareReset _ => False
  | _ => True

theorem ordinary_or (c : Instr) :
    Ordinary c ∨ (∃ x, c = .configure x) ∨ (∃ x, c = .restart x) ∨ ∃ edge, c = .hardwareReset edge := by
  cases c with
  | configure x => exact .inr (.inl ⟨x, rfl⟩)
  | restart x => exact .inr (.inr (.inl ⟨x, rfl⟩))
  | hardwareReset edge => exact .inr (.inr (.inr ⟨edge, rfl⟩))
  | _ => exact .inl trivial

theorem readEventsCommand_outside (p : List Byte) (s : State) : Outside s (s.readEventsCommand p).1 :=
  setPort_outside rfl

theorem overrun_outside (bits : List Bool) (s : State) :
    Outside s (if s.port.busy then (s.clockOut (8 + bits.length) []).overrun else s) := by
  split
  · exact (clockOut_outside _ _ s).trans (setPort_outside (by rfl))
  · exact .refl s

/-- Every command and event but CONFIGURE, RESTART and a hardware reset is a sequence of the machine's changes. -/
theorem exec_ops {c : Instr} (hc : Ordinary c) (hm : awake → Modes s) (h : exec c s = .next t) : Ops awake s t := by
  cases c with
  | configure x => exact hc.elim
  | restart x => exact hc.elim
  | hardwareReset edge => exact hc.elim
  | start x => exact Host.Outcome.next.inj h ▸ takeCommand_ops x startCommand_ops
  | setCab x => exact Host.Outcome.next.inj h ▸ takeCommand_ops x setCabCommand_ops
  | isolate x => exact Host.Outcome.next.inj h ▸ takeCommand_ops x isolateCommand_ops
  | recompose x => exact Host.Outcome.next.inj h ▸ takeCommand_ops x recomposeCommand_ops
  | submit x => exact Host.Outcome.next.inj h ▸ takeCommand_ops x submitCommand_ops
  | withdraw x => exact Host.Outcome.next.inj h ▸ takeCommand_ops x withdrawCommand_ops
  | take x => exact Host.Outcome.next.inj h ▸ takeCommand_ops x takeArrival_ops
  | readOutcomes x => exact Host.Outcome.next.inj h ▸ takeCommand_ops x readOutcomesCommand_ops
  | readRoster x => exact Host.Outcome.next.inj h ▸ takeCommand_ops x readRosterCommand_ops
  | readState x => exact Host.Outcome.next.inj h ▸ takeCommand_ops x fun _ _ => .refl
  | readEvents x =>
    exact Host.Outcome.next.inj h ▸ takeCommand_ops x fun p t => (readEventsCommand_outside p t).ops
  | readAnswer x => exact Host.Outcome.next.inj h ▸ transfer_ops x fun _ => (clockOut_outside _ _ s).ops
  | commandOverrun x =>
    exact Host.Outcome.next.inj h ▸ transfer_ops x fun bits => (overrun_outside bits s).ops
  | answerReady =>
    obtain rfl := Host.Outcome.next.inj h
    split
    · exact (setPort_outside (by rfl)).ops
    · exact .refl
  | periodBoundary e => exact (execPeriodBoundary_outside e h).ops
  | completedPeriod e p k => exact execCompletedPeriod_ops e p k h
  | loss e => exact execLoss_ops e h
  | partingSensed e => exact execPartingSensed_ops e h
  | stuckHigh e => exact execStuckHigh_ops e h
  | releaseAsserted e => exact Host.Outcome.next.inj h ▸ changeUnit_ops e _ s
  | releaseDeasserted e => exact Host.Outcome.next.inj h ▸ changeUnit_ops e _ s
  | busIdle => exact execBusIdle_ops hm h
  | frameReceived bits => exact execFrameReceived_ops bits hm h
  | lostArbitration bit => exact execLostArbitration_ops bit hm h
  | dominantReadRecessive bit => exact (execDominantReadRecessive_outside bit h).ops
  | strike bit => exact execStrike_ops bit hm h
  | cleanCompletion => exact execCleanCompletion_ops h
  | restTimerExpiry => exact (execRestTimerExpiry_outside h).ops
  | quietHoldEnd => exact execQuietHoldEnd_ops h
  | cadenceTimer => exact execCadenceTimer_ops h
  | lastEntryTimeout => exact execLastEntryTimeout_ops h
  | roundDeadline => exact execRoundDeadline_ops h
  | limpRetry => exact execLimpRetry_ops h
  | presenceSchedulePoint => exact execPresenceSchedulePoint_ops h
  | memberLost id => exact execMemberLost_ops id h
  | windowEnd => exact execWindowEnd_ops h
  | lifetimeExpiry ticket => exact (execLifetimeExpiry_outside ticket h).ops
  | startBitSeen => exact (execStartBitSeen_outside h).ops
  | intermissionPassed => exact (execIntermissionPassed_outside h).ops

end Sys2Proof.Machine
end

section
/-! The step, the taking of a command and the two commands outside the machine's changes, said once; then the invariants
of the counts and levels and of the heard table. -/

namespace Sys2Proof.Machine

variable {s t : State}

/-! ## The step and the taking of a command -/

/-- A step is a tick on an empty queue or takes the front command. -/
theorem step_cases (h : step s = .next t) :
    t = s.tick ∨ ∃ c rest, s.pending = c :: rest ∧ exec c (s.setPending rest) = .next t := by
  unfold step at h
  split at h
  · exact .inl (Host.Outcome.next.inj h).symm
  case h_2 c rest hq => exact .inr ⟨c, rest, hq, h⟩

/-- A transaction of a command falls, rises without effect, ends in a status read or an overrun, or takes the command. -/
theorem takeCommand_cases (x : Transfer) (run : List Byte → State → State × List Byte) (s : State) :
    s.takeCommand x run = s.csnFalls ∨ s.takeCommand x run = s ∨
      s.port.csn.isSome = true ∧ ∃ n,
        s.takeCommand x run = s.clockOut n [] ∨ s.takeCommand x run = (s.clockOut n []).overrun ∨
        s.port.busy = false ∧ ∃ p,
          s.takeCommand x run = (run p (s.clockOut n [])).1.leaveAnswer (run p (s.clockOut n [])).2 := by
  cases x with
  | csnFalls => exact .inl rfl
  | csnRises bits =>
    by_cases hc : s.port.csn.isSome = true
    · refine .inr (.inr ⟨hc, 8 + bits.length, ?_⟩)
      rw [State.takeCommand, transfer_rises hc, State.endCommand]
      cases hb : s.port.busy with
      | true => exact .inr (.inl (by simp [clockOut_eq, hb]))
      | false => exact .inr (.inr ⟨rfl, _, by simp [clockOut_eq, hb]; rfl⟩)
    · exact .inr (.inl (by simp [State.takeCommand, State.transfer, hc]))
  | statusRead n =>
    by_cases hc : s.port.csn.isSome = true
    · exact .inr (.inr ⟨hc, n, .inl (by simp [State.takeCommand, State.transfer, hc])⟩)
    · exact .inr (.inl (by simp [State.takeCommand, State.transfer, hc]))

/-- A change of the transaction in progress, the answer and the marks of R150 to R152 alone. -/
def Port.Transacts (p q : Port) : Prop :=
  q = { p with answer := q.answer, answerReady := q.answerReady, busy := q.busy, overrun := q.overrun, csn := q.csn,
               miso := q.miso }

theorem csnFalls_cases (s : State) : s.csnFalls = s ∨ ∃ p, s.port.Transacts p ∧ s.csnFalls = s.setPort p := by
  unfold State.csnFalls
  split
  · exact .inl rfl
  · refine .inr ⟨_, ?_, rfl⟩
    rfl

/-- What the port's transactions keep and a command keeps is kept where the command is taken. -/
theorem takeCommand_keeps {P : State → Prop} (x : Transfer) {run : List Byte → State → State × List Byte}
    (hport : ∀ u p, u.port.Transacts p → P u → P (u.setPort p)) (hrun : ∀ p u, P u → P (run p u).1) (h : P s) :
    P (s.takeCommand x run) := by
  have hclock (n : Nat) : P (s.clockOut n []) := hport s _ rfl h
  obtain he | he | ⟨-, n, he | he | ⟨-, p, he⟩⟩ := takeCommand_cases x run s
  all_goals rw [he]
  · obtain hf | ⟨p, hp, hf⟩ := csnFalls_cases s <;> rw [hf]
    · exact h
    · exact hport s p hp h
  · exact h
  · exact hclock n
  · exact hport _ _ rfl (hclock n)
  · exact hport _ _ rfl (hrun p _ (hclock n))

/-- CONFIGURE changes nothing, or in UNCONFIGURED replaces image and mask by ones it accepts (R156). -/
theorem configure_cases (p : List Byte) (s : State) :
    (s.configure p).1 = s ∨ s.started = false ∧ ∃ i mask, (s.configure p).1 = s.setImage i mask ∧
      i.identity ≠ 0 ∧ i.permitted.getLsbD 0 = true ∧ 2 ≤ i.k ∧ i.k ≤ 8 := by
  unfold State.configure
  split
  case isTrue => exact .inl rfl
  case isFalse hs =>
    split
    case h_2 => exact .inl rfl
    case h_1 =>
      split_ifs with hid hg
      · exact .inl rfl
      · exact .inl rfl
      · split
        · refine .inr ⟨by simpa using hs, _, _, rfl, hid, ?_, ?_, ?_⟩
          · simpa using hg
          · simp only [kOfField]; split_ifs <;> omega
          · simp only [kOfField]; split_ifs <;> omega
        · exact .inl rfl

/-! ## What an adoption leaves in the engine -/

theorem identity_congr (h : t.port.image = s.port.image) : t.identity = s.identity := by
  simp only [State.identity, h]

theorem EngineStep.image (h : EngineStep s t) : t.port.image = s.port.image := by rw [h.port.1]

theorem EngineStep.identity (h : EngineStep s t) : t.identity = s.identity := identity_congr h.image

@[simp] theorem setComp_identity (c : Comp) (s : State) : (s.setComp c).identity = s.identity := rfl
@[simp] theorem setBus_identity (b : Bus) (s : State) : (s.setBus b).identity = s.identity := rfl
@[simp] theorem renamePass_now (s : State) : s.renamePass.now = s.now := (renamePass_cargoStep s).now
@[simp] theorem renamePass_comp (s : State) : s.renamePass.comp = s.comp := (renamePass_cargoStep s).comp
@[simp] theorem renamePass_identity (s : State) : s.renamePass.identity = s.identity :=
  (renamePass_cargoStep s).engine.identity

theorem adopt_comp (limp : Bool) (r : Roster) (s : State) : (s.adopt limp r).comp = { s.comp with
    state := if limp then .limp else .settled
    previous := match s.comp.current with
      | some cur => some cur
      | none => s.comp.previous
    current := some r, pendingRoster := none
    holdDue := none, cadenceDue := none, deadlineDue := none
    presenceDue := some (s.now + 16000 * r.ownPos)
    watch := watchOf r s.identity s.now
    failed := if limp then s.comp.failed else 0
    retryDue := if limp then some (s.now + 120000000) else none
    retryFell := none } := by
  unfold State.adopt
  simp only [State.notify_comp, State.notifyIf_comp, State.setComp_comp, State.setBus_comp, State.setBus_now,
    setBus_identity, renamePass_identity, renamePass_comp, renamePass_now, State.setComp_now, setComp_identity]
  rfl

/-! ## Counts and levels (R50, R76, R79, R114, R115, R117) -/

theorem levelsOk_iff : LevelsOk s ↔ s.comp.LevelsOk ∧ s.grade.LevelsOk :=
  ⟨fun h => ⟨⟨h.failed, h.disagreements, h.ownSent⟩, h.errors, h.upRun, h.ceiling⟩,
    fun ⟨⟨hf, hd, ho⟩, he, hu, hc⟩ => ⟨hf, hd, ho, he, hu, hc⟩⟩

theorem changeEpoch_levels (e : Epoch) (h : s.comp.LevelsOk) : (s.changeEpoch e).comp.LevelsOk := by
  rw [changeEpoch_comp]
  exact ⟨h.1, Nat.zero_le _, Nat.zero_le _⟩

theorem adopt_levels (limp : Bool) (r : Roster) (h : s.comp.LevelsOk) : (s.adopt limp r).comp.LevelsOk := by
  rw [adopt_comp]
  refine ⟨?_, h.2.1, h.2.2⟩
  cases limp
  · exact Nat.zero_le _
  · exact h.1

theorem EngineOp.levels (h : EngineOp s t) (hl : s.comp.LevelsOk) : t.comp.LevelsOk := by
  cases h with
  | mark c h => exact h.levels hl
  | count | handIn | table | append | offer | place => exact hl
  | newEpoch e => exact changeEpoch_levels e hl
  | settle r => exact adopt_levels false r hl
  | limp => exact adopt_levels true _ hl

theorem Op.levels {awake : Prop} (h : Op awake s t) (hl : LevelsOk s) : LevelsOk t := by
  rw [levelsOk_iff] at hl ⊢
  cases h with
  | engine h => exact ⟨h.levels hl.1, h.engineStep.grade ▸ hl.2⟩
  | outside h => exact ⟨h.comp ▸ hl.1, h.grade hl.2⟩
  | halt => exact hl
  | start _ e => exact ⟨changeEpoch_levels e hl.1, (changeEpoch_engineStep e s).grade ▸ hl.2⟩

theorem Ops.levels {awake : Prop} (h : Ops awake s t) (hl : LevelsOk s) : LevelsOk t := by
  induction h with
  | refl => exact hl
  | tail _ h ih => exact h.levels ih

theorem setImage_levels (i : Image) (mask : BitVec 15) (h : LevelsOk s) : LevelsOk (s.setImage i mask) :=
  ⟨h.failed, h.disagreements, h.ownSent, h.errors, h.upRun, Nat.le_refl _⟩

theorem levels_congr (hc : t.comp = s.comp) (hg : t.grade = s.grade) (h : LevelsOk s) : LevelsOk t := by
  rw [levelsOk_iff, hc, hg, ← levelsOk_iff]
  exact h

theorem reset_levels : LevelsOk State.reset := by constructor <;> decide

theorem configure_levels (p : List Byte) (h : LevelsOk s) : LevelsOk (s.configure p).1 := by
  obtain hc | ⟨-, i, mask, hc, -⟩ := configure_cases p s <;> rw [hc]
  · exact h
  · exact setImage_levels i mask h

theorem restartCommand_levels (p : List Byte) (h : LevelsOk s) : LevelsOk (s.restartCommand p).1 := by
  unfold State.restartCommand
  split
  · exact levelsOk_iff.mpr ⟨changeEpoch_levels _ ⟨Nat.zero_le _, Nat.zero_le _, Nat.zero_le _⟩,
      GradeMonitor.begin_levels _ _⟩
  · exact h

theorem execHardwareReset_levels {edge : ResetEdge} (h : execHardwareReset s edge = .next t) (hl : LevelsOk s) :
    LevelsOk t := by
  cases edge <;> obtain rfl := Host.Outcome.next.inj h
  · exact levels_congr (s := State.reset) rfl rfl reset_levels
  · exact levels_congr (s := State.reset) rfl rfl reset_levels
  · exact levels_congr (s := s) rfl rfl hl

theorem takeCommand_levels (x : Transfer) {run : List Byte → State → State × List Byte}
    (hrun : ∀ p u, LevelsOk u → LevelsOk (run p u).1) (h : LevelsOk s) : LevelsOk (s.takeCommand x run) :=
  takeCommand_keeps x (fun u _ _ hu => levels_congr (s := u) rfl rfl hu) hrun h

theorem exec_levels {c : Instr} (h : exec c s = .next t) (hl : LevelsOk s) : LevelsOk t := by
  obtain hc | ⟨x, rfl⟩ | ⟨x, rfl⟩ | ⟨edge, rfl⟩ := ordinary_or c
  · exact (exec_ops (awake := False) hc False.elim h).levels hl
  · exact Host.Outcome.next.inj h ▸ takeCommand_levels x (fun p _ => configure_levels p) hl
  · exact Host.Outcome.next.inj h ▸ takeCommand_levels x (fun p _ => restartCommand_levels p) hl
  · exact execHardwareReset_levels h hl

/-- Settles O56: every change of the machine keeps the levels, and so do CONFIGURE and a hardware reset. -/
theorem stepKeepsLevels : Obligations.StepKeepsLevels := by
  intro s t hl h
  obtain rfl | ⟨c, rest, -, hexec⟩ := step_cases h
  · refine levels_congr (s := s) ?_ ?_ hl <;> (unfold State.tick; split <;> rfl)
  · exact exec_levels hexec (levels_congr (s := s) rfl rfl hl)

end Sys2Proof.Machine
end

section
/-! The heard table through every step (R56 to R61). -/

namespace Sys2Proof.Machine

variable {s t : State} {awake : Prop}

/-! ## The clock and the waiting commands are no part of Modes -/

theorem Modes.congr (h : Modes s) (hbus : t.bus = s.bus) (hport : t.port = s.port) (hcomp : t.comp = s.comp)
    (hgrade : t.grade = s.grade) : Modes t := by
  obtain ⟨h1, h2, h3, h4, h5, h6, h7, h8, h9, h10, h11, h12, h13, h14, h15, h16, h17⟩ := h
  constructor <;> simpa only [hbus, hport, hcomp, hgrade]

theorem Modes.setPending (h : Modes s) (q : List Instr) : Modes (s.setPending q) := h.congr rfl rfl rfl rfl

theorem tick_comp (s : State) : s.tick.comp = s.comp := by unfold State.tick; split <;> rfl
theorem tick_port (s : State) : s.tick.port = s.port := by unfold State.tick; split <;> rfl
theorem tick_bus (s : State) : s.tick.bus = s.bus := by unfold State.tick; split <;> rfl
theorem tick_grade (s : State) : s.tick.grade = s.grade := by unfold State.tick; split <;> rfl
theorem tick_cargo (s : State) : s.tick.cargo = s.cargo := by unfold State.tick; split <;> rfl
theorem tick_chain (s : State) (e : End) : s.tick.chain e = s.chain e := by
  unfold State.tick; split <;> cases e <;> rfl

/-! ## The table's operations -/

theorem mapTable_ids {id : Identity} {f : HeardEntry → HeardEntry} {table : List HeardEntry}
    (hf : ∀ x, x.id = id → (f x).id = id) :
    (mapTable id f table).map HeardEntry.id = table.map HeardEntry.id := by
  unfold mapTable
  rw [List.map_map]
  refine List.map_congr_left fun x _ => ?_
  simp only [Function.comp]
  split
  case isTrue hx => rw [hf x hx, hx]
  case isFalse => rfl

theorem length_mapTable (id : Identity) (f : HeardEntry → HeardEntry) (table : List HeardEntry) :
    (mapTable id f table).length = table.length := List.length_map _

theorem mem_mapTable {id : Identity} {f : HeardEntry → HeardEntry} {table : List HeardEntry} {y : HeardEntry}
    (h : y ∈ mapTable id f table) : ∃ x ∈ table, y = f x ∧ x.id = id ∨ y = x ∧ x.id ≠ id := by
  obtain ⟨x, hx, rfl⟩ := List.mem_map.mp h
  refine ⟨x, hx, ?_⟩
  split
  case isTrue hid => exact .inl ⟨rfl, hid⟩
  case isFalse hid => exact .inr ⟨rfl, hid⟩

theorem findEntry_eq_none_iff {id : Identity} {table : List HeardEntry} :
    findEntry id table = none ↔ ∀ x ∈ table, x.id ≠ id := by
  simp [findEntry]

theorem findEntry_some {id : Identity} {table : List HeardEntry} {x : HeardEntry}
    (h : findEntry id table = some x) : x ∈ table ∧ x.id = id :=
  ⟨List.mem_of_find?_eq_some h, by simpa using List.find?_some h⟩

/-- An entry of an identity is in the table exactly where the identity is. -/
theorem own_iff_mem_ids {id : Identity} {table : List HeardEntry} :
    (∃ x ∈ table, x.id = id) ↔ id ∈ table.map HeardEntry.id := by simp

/-! ## The invariant through each change -/

/-- What the invariant reads. -/
theorem TableOk.congr (h : TableOk s) (hs : t.comp.state = s.comp.state) (ht : t.comp.table = s.comp.table)
    (he : t.comp.epoch = s.comp.epoch) (hi : t.identity = s.identity) : TableOk t := by
  obtain ⟨h1, h2, h3, h4, h5⟩ := h
  constructor <;> simpa only [hs, ht, he, hi]

/-- A table of the own entry alone, outside IDLE. -/
theorem TableOk.alone {x : HeardEntry} (hs : s.comp.state ≠ .idle) (ht : s.comp.table = [x])
    (hx : x.id = s.identity) (he : x.offer.epoch = s.comp.epoch) : TableOk s where
  idle h := absurd h hs
  own _ := ⟨x, by simp [ht], hx⟩
  length := by simp [ht]
  distinct := by simp [ht]
  epochs y hy := by simp only [ht, List.mem_singleton] at hy; rw [hy, he]

/-- The table is kept where the state moves among those outside IDLE. -/
theorem TableOk.moved (h : TableOk s) (hs : s.comp.state ≠ .idle) (hs' : t.comp.state ≠ .idle)
    (ht : t.comp.table = s.comp.table) (he : t.comp.epoch = s.comp.epoch) (hi : t.identity = s.identity) :
    TableOk t where
  idle h' := absurd h' hs'
  own _ := by rw [ht, hi]; exact h.own hs
  length := ht ▸ h.length
  distinct := ht ▸ h.distinct
  epochs := by rw [ht, he]; exact h.epochs

theorem changeEpoch_tableOk (e : Epoch) (s : State) : TableOk (s.changeEpoch e) := by
  refine .alone (x := ⟨s.identity, { s.ownOffer with epoch := e }, none⟩) ?_ ?_ ?_ ?_
  · simp [changeEpoch_comp]
  · rw [changeEpoch_comp]
  · exact (changeEpoch_engineStep e s).identity.symm
  · rw [changeEpoch_comp]

theorem mapTable_tableOk {id : Identity} {f : HeardEntry → HeardEntry}
    (hf : ∀ x, x.id = id → (f x).id = id ∧ ((f x).offer.epoch = s.comp.epoch ∨ (f x).offer = x.offer))
    (h : TableOk s) : TableOk (s.setComp { s.comp with table := mapTable id f s.comp.table }) where
  idle hs := by simp only [State.setComp_comp, h.idle hs]; rfl
  own hs := by
    have hown := h.own hs
    simp only [State.setComp_comp, setComp_identity]
    rw [own_iff_mem_ids] at hown ⊢
    rwa [mapTable_ids fun x hx => (hf x hx).1]
  length := by simpa only [State.setComp_comp, length_mapTable] using h.length
  distinct := by simpa only [State.setComp_comp, mapTable_ids fun x hx => (hf x hx).1] using h.distinct
  epochs y hy := by
    obtain ⟨x, hx, ⟨rfl, hid⟩ | ⟨rfl, -⟩⟩ := mem_mapTable hy
    · obtain he | he := (hf x hid).2
      · exact he
      · rw [he]; exact h.epochs x hx
    · exact h.epochs y hx

theorem append_tableOk {src : Identity} {o : OfferFields} (hlive : s.live)
    (hnew : findEntry src s.comp.table = none) (hroom : s.comp.table.length < 16)
    (he : o.epoch = s.comp.epoch) (h : TableOk s) :
    TableOk (s.setComp { s.comp with
      table := s.comp.table ++ [⟨src, o, none⟩], lastEntry := some s.now }) where
  idle hs := absurd hs hlive.1
  own _ := by
    obtain ⟨x, hx, hid⟩ := h.own hlive.1
    exact ⟨x, List.mem_append_left _ hx, hid⟩
  length := by simpa using hroom
  distinct := by
    rw [findEntry_eq_none_iff] at hnew
    simp only [State.setComp_comp, List.map_append, List.map_cons, List.map_nil, List.nodup_append]
    refine ⟨h.distinct, by simp, ?_⟩
    rintro a ha b hb rfl
    obtain ⟨x, hx, rfl⟩ := List.mem_map.mp ha
    exact hnew x hx (by simpa using hb)
  epochs x hx := by
    simp only [State.setComp_comp, List.mem_append, List.mem_singleton] at hx
    obtain hx | rfl := hx
    · exact h.epochs x hx
    · exact he

theorem EngineOp.tableOk (hop : EngineOp s t) (h : TableOk s) : TableOk t := by
  have hi := hop.engineStep.identity
  cases hop with
  | mark c hc => exact h.congr hc.state hc.table hc.epoch hi
  | count | handIn => exact h.congr rfl rfl rfl hi
  | table id f hf => exact mapTable_tableOk hf h
  | append src o hlive hnew hroom he => exact append_tableOk hlive hnew hroom he h
  | newEpoch e => exact changeEpoch_tableOk e s
  | offer hlive => exact h.moved hlive.1 nofun rfl rfl hi
  | place r hs => exact h.moved (by simp [hs]) nofun rfl rfl hi
  | settle r hlive => exact h.moved hlive.1 (by simp [adopt_state]) (by rw [adopt_comp]) (by rw [adopt_comp]) hi
  | limp hlive =>
    exact h.moved hlive.1 (by simp [enterLimp_state]) (by rw [State.enterLimp, adopt_comp])
      (by rw [State.enterLimp, adopt_comp]) hi

theorem Op.tableOk (hop : Op True s t) (h : TableOk s) : TableOk t := by
  cases hop with
  | engine hop => exact hop.tableOk h
  | outside hop => exact h.congr (by rw [hop.comp]) (by rw [hop.comp]) (by rw [hop.comp]) (identity_congr hop.image)
  | halt hs => exact h.moved (hs trivial) nofun rfl rfl rfl
  | start _ e => exact changeEpoch_tableOk e s

theorem Ops.tableOk (hops : Ops True s t) (h : TableOk s) : TableOk t := by
  induction hops with
  | refl => exact h
  | tail _ hop ih => exact hop.tableOk ih

/-! ## CONFIGURE, a hardware reset and the step -/

/-- Before START the table is empty, and its soundness does not depend on the identity. -/
theorem TableOk.of_idle (hs : s.comp.state = .idle) (ht : s.comp.table = []) : TableOk s where
  idle _ := ht
  own h := absurd hs h
  length := by simp [ht]
  distinct := by simp [ht]
  epochs := by simp [ht]

/-- CONFIGURE does not touch the engine, and changes the identity in UNCONFIGURED alone. -/
theorem takeConfigure_comp (x : Transfer) (s : State) : (s.takeCommand x State.configure).comp = s.comp := by
  obtain he | he | ⟨-, n, he | he | ⟨-, p, he⟩⟩ := takeCommand_cases x State.configure s
  all_goals rw [he]
  · exact (csnFalls_outside s).comp
  · rfl
  · rfl
  · obtain hc | ⟨-, i, mask, hc, -⟩ := configure_cases p (s.clockOut n []) <;> simp only [hc] <;> rfl

theorem takeConfigure_image (x : Transfer) (hs : s.started = true) :
    (s.takeCommand x State.configure).port.image = s.port.image := by
  obtain he | he | ⟨-, n, he | he | ⟨-, p, he⟩⟩ := takeCommand_cases x State.configure s
  all_goals rw [he]
  · exact (csnFalls_outside s).image
  · rfl
  · rfl
  · obtain hc | ⟨hu, -⟩ := configure_cases p (s.clockOut n [])
    · simp only [hc]; rfl
    · exact absurd hs (by simpa using hu)

theorem started_iff : s.started = true ↔ s.port.part ≠ .unconfigured := by simp [State.started]

theorem takeConfigure_tableOk (x : Transfer) (hm : Modes s) (h : TableOk s) :
    TableOk (s.takeCommand x State.configure) := by
  have hc := takeConfigure_comp x s
  by_cases hs : s.port.part = .unconfigured
  · have hidle := hm.idleIff.mpr hs
    exact .of_idle (hc ▸ hidle) (hc ▸ h.idle hidle)
  · exact h.congr (by rw [hc]) (by rw [hc]) (by rw [hc])
      (identity_congr (takeConfigure_image x (started_iff.mpr hs)))

theorem restartCommand_tableOk (p : List Byte) (h : TableOk s) : TableOk (s.restartCommand p).1 := by
  unfold State.restartCommand
  split
  · exact (changeEpoch_tableOk _ _).congr rfl rfl rfl rfl
  · exact h

theorem exec_tableOk {c : Instr} (h : exec c s = .next t) (hm : Modes s) (ht : TableOk s) : TableOk t := by
  obtain hc | ⟨x, rfl⟩ | ⟨x, rfl⟩ | ⟨edge, rfl⟩ := ordinary_or c
  · exact (exec_ops hc (fun _ => hm) h).tableOk ht
  · exact Host.Outcome.next.inj h ▸ takeConfigure_tableOk x hm ht
  · refine Host.Outcome.next.inj h ▸ takeCommand_keeps x ?_ (fun p _ => restartCommand_tableOk p) ht
    exact fun u p hp hu => hu.congr rfl rfl rfl (identity_congr (by rw [hp]; rfl))
  · cases edge <;> obtain rfl := Host.Outcome.next.inj h
    · exact .of_idle rfl rfl
    · exact .of_idle rfl rfl
    · exact ht.congr rfl rfl rfl rfl

/-- Settles O54: every change of the machine keeps the heard table sound. -/
theorem stepKeepsHeardTable : Obligations.StepKeepsHeardTable := by
  intro s t hm ht h
  obtain rfl | ⟨c, rest, -, hexec⟩ := step_cases h
  · exact ht.congr (by rw [tick_comp]) (by rw [tick_comp]) (by rw [tick_comp])
      (identity_congr (by rw [tick_port]))
  · exact exec_tableOk hexec (hm.setPending rest) (ht.congr rfl rfl rfl rfl)

end Sys2Proof.Machine
end

section
/-! Part state, controller state and composition state through every step (R26, R42, R62, R88, R155, R165, R171). -/

namespace Sys2Proof.Machine

variable {s t : State}

/-! ## What holds of the modes at every moment, within a step too -/

/-- The agreement of the modes but for the three conditions that are open between the end of an own frame and the
reception or the count to idle that follows it: a reception in RECEIVING, the running count, and the sixteenth strike. -/
structure Steady (s : State) : Prop where
  offIff      : s.bus.ctrl = .off ↔ s.port.part = .unconfigured
  silencedIff : s.bus.ctrl = .silenced ↔ s.port.part = .silenced
  idleIff     : s.comp.state = .idle ↔ s.port.part = .unconfigured
  haltedIff   : s.comp.state = .halted ↔ s.port.part = .silenced
  image       : s.port.part ≠ .unconfigured → s.port.image.isSome
  txIff       : s.bus.tx.isSome ↔ s.bus.ctrl = .transmitting
  rx          : s.bus.rx.isSome →
                  s.bus.ctrl = .receiving ∨ s.bus.ctrl = .resting ∨ s.bus.ctrl = .silenced
  idleBus     : s.bus.idle = true →
                  s.bus.rx = none ∧ s.bus.idleDue = none ∧
                    (s.bus.ctrl = .listening ∨ s.bus.ctrl = .resting ∨ s.bus.ctrl = .silenced)
  restIff     : s.bus.restDue.isSome ↔ s.bus.ctrl = .resting
  slot        : s.port.part ≠ .running → s.bus.slot = none
  strikes     : s.bus.strikes ≤ 16
  resting     : s.bus.ctrl = .resting → s.bus.strikes = 16
  windows     : s.grade.windowDue.isSome ↔ s.port.part ≠ .unconfigured
  inReset     : s.port.inReset = true →
                  s.port.part = .unconfigured ∧ s.port.csn = none ∧ s.port.busy = false

/-- The three conditions that Steady leaves open. -/
structure Bus.Closed (b : Bus) : Prop where
  receiving : b.ctrl = .receiving → b.rx.isSome
  counting  : b.watches = true → b.idle = true ∨ b.idleDue.isSome
  sixteen   : b.strikes = 16 → b.ctrl = .resting ∨ b.ctrl = .silenced

theorem modes_iff : Modes s ↔ Steady s ∧ s.bus.Closed :=
  ⟨fun ⟨h1, h2, h3, h4, h5, h6, h7, h8, h9, h10, h11, h12, h13, h14, h15, h16, h17⟩ =>
      ⟨⟨h1, h2, h3, h4, h5, h6, h8, h10, h11, h12, h13, h14, h16, h17⟩, ⟨h7, h9, h15⟩⟩,
    fun ⟨⟨h1, h2, h3, h4, h5, h6, h8, h10, h11, h12, h13, h14, h16, h17⟩, ⟨h7, h9, h15⟩⟩ =>
      ⟨h1, h2, h3, h4, h5, h6, h7, h8, h9, h10, h11, h12, h13, h14, h15, h16, h17⟩⟩

theorem Modes.steady (h : Modes s) : Steady s := (modes_iff.mp h).1
theorem Modes.closed (h : Modes s) : s.bus.Closed := (modes_iff.mp h).2

/-! ## Changes of the engine and of the cargo router -/

theorem Steady.engine (h : Steady s) (hstep : EngineStep s t)
    (hidle : t.comp.state = .idle ↔ s.comp.state = .idle)
    (hhalted : t.comp.state = .halted ↔ s.comp.state = .halted)
    (hslot : s.port.part ≠ .running → t.bus.slot = s.bus.slot) : Steady t := by
  have hport := hstep.port.1
  have hbus := hstep.bus
  have hgrade := hstep.grade
  have hpart : t.port.part = s.port.part := by rw [hport]
  constructor
  case slot => intro hp; rw [hpart] at hp; rw [hslot hp]; exact h.slot hp
  case idleIff => rw [hidle, hpart]; exact h.idleIff
  case haltedIff => rw [hhalted, hpart]; exact h.haltedIff
  all_goals (try rw [hport]); (try rw [hbus]); (try rw [hgrade])
  · exact h.offIff
  · exact h.silencedIff
  · exact h.image
  · exact h.txIff
  · exact h.rx
  · exact h.idleBus
  · exact h.restIff
  · exact h.strikes
  · exact h.resting
  · exact h.windows
  · exact h.inReset

theorem Bus.Closed.engine (h : s.bus.Closed) (hstep : EngineStep s t) : t.bus.Closed := by
  have hbus := hstep.bus
  constructor <;> rw [hbus]
  · exact h.receiving
  · exact h.counting
  · exact h.sixteen

theorem Steady.live_iff (h : Steady s) : s.live ↔ s.port.part = .running := by
  unfold State.live
  rw [Ne, Ne, h.idleIff, h.haltedIff]
  cases s.port.part <;> simp

theorem Steady.engineOps (h : Steady s) (hops : EngineOps s t) : Steady t := by
  by_cases hl : s.live
  · have hl' := hops.live hl
    refine h.engine hops.engineStep (by simp [hl.1, hl'.1]) (by simp [hl.2, hl'.2]) fun hp => ?_
    exact absurd (h.live_iff.mp hl) hp
  · have hr := hops.resting hl
    exact h.engine hops.engineStep (by rw [hr.state]) (by rw [hr.state]) fun _ => by rw [hr.bus]

theorem Modes.engineOps (h : Modes s) (hops : EngineOps s t) : Modes t :=
  modes_iff.mpr ⟨h.steady.engineOps hops, h.closed.engine hops.engineStep⟩

theorem CargoStep.slot (h : CargoStep s t) : t.bus.slot = s.bus.slot := by rw [h.bus]

theorem Steady.cargo (h : Steady s) (hstep : CargoStep s t) : Steady t :=
  h.engine hstep.engine (by rw [hstep.comp]) (by rw [hstep.comp]) fun _ => hstep.slot

theorem Modes.cargo (h : Modes s) (hstep : CargoStep s t) : Modes t :=
  modes_iff.mpr ⟨h.steady.cargo hstep, h.closed.engine hstep.engine⟩

theorem Modes.trigger (h : Modes s) (r : Reason) (hr : r = .start → s.comp.state ≠ .idle) :
    Modes (s.trigger r) := h.engineOps (trigger_ops r hr)

theorem Steady.grade (h : Steady s) (g : GradeMonitor) (hg : g.windowDue.isSome = s.grade.windowDue.isSome) :
    Steady (s.setGrade g) := by
  obtain ⟨h1, h2, h3, h4, h5, h6, h8, h10, h11, h12, h13, h14, h16, h17⟩ := h
  constructor <;> simpa [hg]

theorem Modes.grade (h : Modes s) (g : GradeMonitor) (hg : g.windowDue.isSome = s.grade.windowDue.isSome) :
    Modes (s.setGrade g) := modes_iff.mpr ⟨h.steady.grade g hg, h.closed⟩

theorem Modes.advanceTo (h : Modes s) (t : Ticks) : Modes (s.advanceTo t) := h.congr rfl rfl rfl rfl

/-! ## Own frames -/

theorem select_modes (h : Modes s) : Modes s.select.1 := h.cargo (select_cargoStep s)

theorem selected_modes (h : Modes s) (x : Option Selection) : Modes (s.setBus { s.bus with selected := x }) := by
  obtain ⟨h1, h2, h3, h4, h5, h6, h7, h8, h9, h10, h11, h12, h13, h14, h15, h16, h17⟩ := h
  constructor <;> simpa

theorem transmit_modes (h : Modes s) (x : Tx) (hctrl : s.bus.ctrl = .listening) : Modes (s.transmit x) := by
  have hrx : s.bus.rx = none := by
    by_contra hne
    have := h.rx (Option.isSome_iff_ne_none.mpr hne)
    simp [hctrl] at this
  obtain ⟨h1, h2, h3, h4, h5, h6, h7, h8, h9, h10, h11, h12, h13, h14, h15, h16, h17⟩ := h
  simp only [hctrl] at *
  constructor <;> simp_all [State.transmit, Bus.watches]

theorem emptySlot_modes (h : Modes s) : Modes (s.setBus { s.bus with slot := none }) := by
  obtain ⟨h1, h2, h3, h4, h5, h6, h7, h8, h9, h10, h11, h12, h13, h14, h15, h16, h17⟩ := h
  constructor <;> simp <;> assumption

theorem startFrame_modes (h : Modes s) (x : Selection) (hctrl : s.bus.ctrl = .listening) :
    Modes (s.startFrame x) := by
  unfold State.startFrame
  split
  · split
    · exact transmit_modes (emptySlot_modes h) _ hctrl
    · exact h
  · split
    · exact transmit_modes (h.cargo (mapEntry_cargoStep _ _ _)) _ hctrl
    · exact h

theorem atIdle_modes (h : Modes s) : Modes s.atIdle := by
  have hselect := select_modes h
  unfold State.atIdle
  dsimp only
  split
  · exact selected_modes hselect _
  · split
    case isTrue hc => exact startFrame_modes hselect _ hc.1
    case isFalse => exact selected_modes hselect _

theorem sendWaiting_modes (h : Modes s) : Modes s.sendWaiting := by
  unfold State.sendWaiting
  split
  · exact atIdle_modes h
  · exact h

/-! ## The stop, and the delivery of a frame -/

theorem stop_bus (s : State) : ∃ counters, s.stop.bus = { s.bus with
    ctrl := .silenced, slot := none, restDue := none, selected := none, counters := counters } := by
  unfold State.stop
  dsimp only
  rw [(flush_cargoStep _).bus]
  exact ⟨_, rfl⟩

theorem stop_comp (s : State) : s.stop.comp = s.halt.comp := (flush_cargoStep _).comp

theorem stop_port (s : State) : ∃ flags, s.stop.port = { s.port with part := .silenced, flags := flags } := by
  unfold State.stop
  dsimp only
  rw [(flush_cargoStep _).port.1]
  exact ⟨_, rfl⟩

theorem stop_grade (s : State) : s.stop.grade = s.grade := (flush_cargoStep _).grade

theorem stop_steady (h : Steady s) (hpart : s.port.part ≠ .unconfigured) (htx : s.bus.tx = none) :
    Steady s.stop := by
  have hreset : s.port.inReset = false := by
    by_contra hr
    exact hpart (h.inReset (by simpa using hr)).1
  obtain ⟨counters, hbus⟩ := stop_bus s
  obtain ⟨flags, hport⟩ := stop_port s
  constructor
  case idleIff | haltedIff => simp [stop_comp, State.halt, hport]
  case inReset => simp [hport, hreset]
  case windows => simpa [stop_grade, hport, hpart] using h.windows
  case image => simpa [hport] using h.image hpart
  all_goals simp only [hbus, hport]
  case idleBus => simpa using fun hi => ⟨(h.idleBus hi).1, (h.idleBus hi).2.1⟩
  case strikes => exact h.strikes
  all_goals simp [htx]

theorem stop_closed (h : s.bus.idle = true ∨ s.bus.idleDue.isSome) : s.stop.bus.Closed := by
  obtain ⟨counters, hbus⟩ := stop_bus s
  constructor <;> simp [hbus, h]

theorem Steady.part_of_ctrl (h : Steady s) (hctrl : s.bus.ctrl ≠ .off) : s.port.part ≠ .unconfigured :=
  fun hp => hctrl (h.offIff.mpr hp)

theorem firstClash_modes (h : Modes s) (x : Option Ticks) : Modes (s.setBus { s.bus with firstClash := x }) := by
  obtain ⟨h1, h2, h3, h4, h5, h6, h7, h8, h9, h10, h11, h12, h13, h14, h15, h16, h17⟩ := h
  constructor <;> simpa

theorem clash_modes (h : Modes s) (hpart : s.port.part ≠ .unconfigured) (htx : s.bus.tx = none) :
    Modes s.clash := by
  unfold State.clash
  split
  · exact h
  · split
    · refine modes_iff.mpr ⟨stop_steady h.steady hpart htx, stop_closed (h.counting ?_)⟩
      have htrans : s.bus.ctrl ≠ .transmitting := fun hc => by simpa [htx] using h.txIff.mpr hc
      have hoff : s.bus.ctrl ≠ .off := fun hc => hpart (h.offIff.mp hc)
      cases hc : s.bus.ctrl <;> simp_all [Bus.watches]
    · exact ((firstClash_modes h _).cargo (notify_cargoStep _ _)).trigger _ nofun

theorem deliver_modes (f : Frame) (h : Modes s) (hpart : s.port.part ≠ .unconfigured) (htx : s.bus.tx = none) :
    Modes (s.deliver f) := by
  unfold State.deliver
  split
  · exact clash_modes h hpart htx
  · split
    · exact h.engineOps (deliverComp_ops f s)
    · exact h.cargo (deliverCargo_cargoStep f s)

/-- A delivery leaves the reception ended, and the controller in its state or SILENCED. -/
theorem clash_bus (s : State) : s.clash.bus.rx = s.bus.rx ∧ s.clash.bus.idle = s.bus.idle ∧
    (s.clash.bus.ctrl = s.bus.ctrl ∨ s.clash.bus.ctrl = .silenced) := by
  unfold State.clash
  split
  · exact ⟨rfl, rfl, .inl rfl⟩
  · split
    · obtain ⟨counters, hbus⟩ := stop_bus s
      rw [hbus]
      exact ⟨rfl, rfl, .inr rfl⟩
    · rw [(trigger_engineStep _ _).bus]
      exact ⟨rfl, rfl, .inl rfl⟩

theorem deliver_bus (f : Frame) (s : State) : (s.deliver f).bus.rx = s.bus.rx ∧
    (s.deliver f).bus.idle = s.bus.idle ∧
    ((s.deliver f).bus.ctrl = s.bus.ctrl ∨ (s.deliver f).bus.ctrl = .silenced) := by
  unfold State.deliver
  split
  · exact clash_bus s
  · split
    · rw [(deliverComp_engineStep _ _).bus]
      exact ⟨rfl, rfl, .inl rfl⟩
    · rw [(deliverCargo_cargoStep _ _).bus]
      exact ⟨rfl, rfl, .inl rfl⟩

/-! ## Receptions -/

/-- What a reception needs: a running count to idle, and a controller that receives. -/
structure Hearing (s : State) : Prop where
  steady  : Steady s
  idle    : s.bus.idle = false
  due     : s.bus.idleDue.isSome
  ctrl    : s.bus.ctrl = .receiving ∨ s.bus.ctrl = .resting ∨ s.bus.ctrl = .silenced
  sixteen : s.bus.strikes = 16 → s.bus.ctrl = .resting ∨ s.bus.ctrl = .silenced

theorem Hearing.part (h : Hearing s) : s.port.part ≠ .unconfigured :=
  h.steady.part_of_ctrl (by obtain hc | hc | hc := h.ctrl <;> simp [hc])

theorem Hearing.tx (h : Hearing s) : s.bus.tx = none := by
  by_contra hne
  have htx := h.steady.txIff.mp (Option.isSome_iff_ne_none.mpr hne)
  obtain hc | hc | hc := h.ctrl <;> simp [hc] at htx

theorem Hearing.goesOn (h : Hearing s) (r : Rx) : Modes (s.setBus { s.bus with rx := some r }) := by
  obtain ⟨⟨h1, h2, h3, h4, h5, h6, h8, h10, h11, h12, h13, h14, h16, h17⟩, hidle, hdue, hctrl, hsixteen⟩ := h
  constructor <;> simp <;> try assumption
  all_goals simp [hidle, hdue]

theorem Hearing.ends (h : Hearing s) : Modes s.endReception := by
  have htx := h.tx
  obtain ⟨⟨h1, h2, h3, h4, h5, h6, h8, h10, h11, h12, h13, h14, h16, h17⟩, hidle, hdue, hctrl, hsixteen⟩ := h
  obtain hc | hc | hc := hctrl <;> constructor <;> simp [State.endReception, hc] <;> simp_all

theorem takeReception_modes (r : RxResult) (h : Hearing s) : Modes (s.takeReception r) := by
  unfold State.takeReception
  split
  · exact h.goesOn _
  · exact h.ends.cargo (count_cargoStep _ _)
  · exact (h.ends.cargo (count_cargoStep _ _)).grade _ rfl
  · exact deliver_modes _ h.ends h.part h.tx

/-- A reception that has a result is over, and the controller is not in RECEIVING. -/
theorem takeReception_ended {r : RxResult} (hr : ∀ x, r ≠ .more x) (s : State) :
    (s.takeReception r).bus.rx = none ∧ (s.takeReception r).bus.idle = s.bus.idle ∧
      ((s.takeReception r).bus.ctrl = s.endReception.bus.ctrl ∨ (s.takeReception r).bus.ctrl = .silenced) := by
  unfold State.takeReception
  split
  · exact absurd rfl (hr _)
  · exact ⟨rfl, rfl, .inl rfl⟩
  · exact ⟨rfl, rfl, .inl rfl⟩
  · obtain ⟨hrx, hidle, hctrl⟩ := deliver_bus ‹_› s.endReception
    exact ⟨hrx, hidle, hctrl⟩

theorem receive_modes (r : Rx) (bits : List Bool) (h : Steady s) (hidle : s.bus.idle = false)
    (hctrl : s.bus.ctrl = .receiving ∨ s.bus.ctrl = .resting ∨ s.bus.ctrl = .silenced)
    (hsixteen : s.bus.strikes = 16 → s.bus.ctrl = .resting ∨ s.bus.ctrl = .silenced) :
    Modes (s.receive r bits) := by
  refine takeReception_modes _ ⟨?_, hidle, rfl, hctrl, hsixteen⟩
  obtain ⟨h1, h2, h3, h4, h5, h6, h8, h10, h11, h12, h13, h14, h16, h17⟩ := h
  constructor <;> simp [State.idleIn, hidle] <;> assumption

theorem Rx.atIdle_ne_more (permitted : BitVec 4) (r x : Rx) : r.atIdle permitted ≠ .more x := by
  unfold Rx.atIdle
  split
  · exact nofun
  case h_2 hne => exact fun h => hne x h

theorem Modes.rx_ctrl (h : Modes s) (hrx : s.bus.rx.isSome) : Hearing s := by
  have hctrl := h.rx hrx
  have hidle : s.bus.idle = false := by
    by_contra hi
    have := (h.idleBus (by simpa using hi)).1
    simp [this] at hrx
  refine ⟨h.steady, hidle, ?_, hctrl, h.sixteen⟩
  have hwatch : s.bus.watches = true := by obtain hc | hc | hc := hctrl <;> simp [Bus.watches, hc]
  simpa [hidle] using h.counting hwatch

/-- Idle ends a reception: what is left listens, rests or is silenced, with nothing in reception. -/
theorem idleReception_modes (h : Modes s) (hwatch : s.bus.watches = true) :
    Modes s.idleReception ∧ s.idleReception.bus.rx = none ∧
      (s.idleReception.bus.ctrl = .listening ∨ s.idleReception.bus.ctrl = .resting ∨
        s.idleReception.bus.ctrl = .silenced) := by
  unfold State.idleReception
  split
  case h_1 r hrx =>
    have hearing := h.rx_ctrl (by simp [hrx])
    obtain ⟨hnone, -, hctrl⟩ := takeReception_ended (fun x => Rx.atIdle_ne_more s.permitted r x) s
    refine ⟨takeReception_modes _ hearing, hnone, ?_⟩
    obtain hctrl | hctrl := hctrl
    · rw [hctrl]
      obtain hc | hc | hc := hearing.ctrl <;> simp [State.endReception, hc]
    · exact .inr (.inr hctrl)
  case h_2 hrx =>
    refine ⟨h, hrx, ?_⟩
    cases hc : s.bus.ctrl <;> simp_all [Bus.watches]
    simpa [hrx] using h.receiving hc

end Sys2Proof.Machine
end

section
/-! Every command and event keeps the modes together (R26, R42, R62, R88, R155, R165, R171). -/

namespace Sys2Proof.Machine

variable {s t : State}

/-! ## The end of an own transmission -/

/-- The own frame has ended: the station drives no more, receives nothing, and the bus is not idle. -/
structure Ceased (s : State) : Prop where
  steady  : Steady s
  idle    : s.bus.idle = false
  rx      : s.bus.rx = none
  ctrl    : s.bus.ctrl = .listening ∨ s.bus.ctrl = .resting ∨ s.bus.ctrl = .silenced
  sixteen : s.bus.strikes = 16 → s.bus.ctrl = .resting ∨ s.bus.ctrl = .silenced

/-- What Modes says of a station that sends. -/
theorem Modes.sending (h : Modes s) (htx : s.bus.tx.isSome) :
    s.bus.ctrl = .transmitting ∧ s.bus.idle = false ∧ s.bus.rx = none ∧ s.bus.strikes ≤ 15 ∧
      s.port.part = .running := by
  have hctrl := h.txIff.mp htx
  refine ⟨hctrl, ?_, ?_, ?_, ?_⟩
  · by_contra hi
    have := (h.idleBus (by simpa using hi)).2.2
    simp [hctrl] at this
  · by_contra hne
    have := h.rx (Option.isSome_iff_ne_none.mpr hne)
    simp [hctrl] at this
  · have hmax := h.strikes
    have hne : s.bus.strikes ≠ 16 := fun he => by simpa [hctrl] using h.sixteen he
    omega
  · have hoff := h.offIff
    have hsilenced := h.silencedIff
    cases hp : s.port.part <;> simp_all

theorem stopDriving_steady (h : Modes s) (htx : s.bus.tx.isSome) : Steady s.stopDriving := by
  obtain ⟨hctrl, hidle, hrx, hstrikes, hpart⟩ := h.sending htx
  obtain ⟨h1, h2, h3, h4, h5, h6, h8, h10, h11, h12, h13, h14, h16, h17⟩ := h.steady
  simp only [hctrl] at *
  constructor <;> simp_all [State.stopDriving]

theorem stopDriving_ceased (h : Modes s) (htx : s.bus.tx.isSome) : Ceased s.stopDriving := by
  obtain ⟨-, hidle, hrx, hstrikes, -⟩ := h.sending htx
  refine ⟨stopDriving_steady h htx, hidle, hrx, .inl rfl, fun he => ?_⟩
  have : s.bus.strikes = 16 := he
  omega

/-- An engine step in RUNNING that leaves the engine's state keeps what an ended frame leaves. -/
theorem Ceased.engine (h : Ceased s) (hstep : EngineStep s t) (hcomp : t.comp = s.comp)
    (hpart : s.port.part = .running) : Ceased t := by
  have hbus := hstep.bus
  have hsteady := h.steady.engine hstep (by rw [hcomp]) (by rw [hcomp]) (fun hp => absurd hpart hp)
  refine ⟨hsteady, ?_, ?_, ?_, ?_⟩ <;> rw [hbus]
  · exact h.idle
  · exact h.rx
  · exact h.ctrl
  · exact h.sixteen

theorem giveBack_ceased (o : Origin) (h : Ceased s) (hpart : s.port.part = .running) : Ceased (s.giveBack o) :=
  h.engine (giveBack_engineStep o s) (giveBack_outside o s).comp hpart

theorem Ceased.part (h : Ceased s) : s.port.part ≠ .unconfigured :=
  h.steady.part_of_ctrl (by obtain hc | hc | hc := h.ctrl <;> simp [hc])

theorem Ceased.tx (h : Ceased s) : s.bus.tx = none := by
  by_contra hne
  have htx := h.steady.txIff.mp (Option.isSome_iff_ne_none.mpr hne)
  obtain hc | hc | hc := h.ctrl <;> simp [hc] at htx

/-- The station goes on as a receiver of what it has read. -/
theorem Ceased.receiveOwn (h : Ceased s) (f : Frame) (k : Nat) : Modes (s.beginReceiving.receiveOwn f k) := by
  obtain ⟨⟨h1, h2, h3, h4, h5, h6, h8, h10, h11, h12, h13, h14, h16, h17⟩, hidle, hrx, hctrl, hsixteen⟩ := h
  have htx := Ceased.tx ⟨⟨h1, h2, h3, h4, h5, h6, h8, h10, h11, h12, h13, h14, h16, h17⟩, hidle, hrx, hctrl, hsixteen⟩
  refine receive_modes _ _ ?_ hidle ?_ ?_
  · obtain hc | hc | hc := hctrl <;> constructor <;> simp [State.beginReceiving, hc] <;> simp_all
  · obtain hc | hc | hc := hctrl <;> simp [State.beginReceiving, hc]
  · obtain hc | hc | hc := hctrl <;> simp_all [State.beginReceiving]

/-- The station waits for idle. -/
theorem Ceased.awaitIdle (h : Ceased s) (f : Frame) (k : Nat) : Modes (s.awaitIdle f k) := by
  obtain ⟨⟨h1, h2, h3, h4, h5, h6, h8, h10, h11, h12, h13, h14, h16, h17⟩, hidle, hrx, hctrl, hsixteen⟩ := h
  have hreceiving : s.bus.ctrl ≠ .receiving := by obtain hc | hc | hc := hctrl <;> simp [hc]
  unfold State.awaitIdle
  split
  · constructor <;> simp <;> first | assumption | simp_all
  · constructor <;> simp [State.idleIn] <;> first | assumption | simp_all

theorem countStrike_steady (h : Steady s) (hctrl : s.bus.ctrl = .listening) : Steady s.countStrike := by
  obtain ⟨h1, h2, h3, h4, h5, h6, h8, h10, h11, h12, h13, h14, h16, h17⟩ := h
  constructor <;> simp [State.countStrike, State.reportError] <;> first | assumption | simp_all

theorem rest_steady (h : Steady s) (hctrl : s.bus.ctrl = .listening) (hstrikes : s.bus.strikes = 16)
    (hrx : s.bus.rx = none) (x y : Option Ticks) (hy : y.isSome) :
    Steady (s.setBus { s.bus with ctrl := .resting, latestRest := x, restDue := y }) := by
  obtain ⟨h1, h2, h3, h4, h5, h6, h8, h10, h11, h12, h13, h14, h16, h17⟩ := h
  constructor <;> simp_all

theorem restOrStop_ceased (h : Steady s) (hidle : s.bus.idle = false) (hrx : s.bus.rx = none)
    (hctrl : s.bus.ctrl = .listening) (hstrikes : s.bus.strikes = 16) : Ceased s.restOrStop := by
  have htx : s.bus.tx = none := by
    by_contra hne
    have := h.txIff.mp (Option.isSome_iff_ne_none.mpr hne)
    simp [hctrl] at this
  unfold State.restOrStop
  split
  · obtain ⟨counters, hbus⟩ := stop_bus s
    refine ⟨stop_steady h (h.part_of_ctrl (by simp [hctrl])) htx, ?_, ?_, ?_, ?_⟩ <;> rw [hbus]
    · exact hidle
    · exact hrx
    · exact .inr (.inr rfl)
    · exact fun _ => .inr rfl
  · exact ⟨(rest_steady h hctrl hstrikes hrx _ _ rfl).cargo (notify_cargoStep _ _), hidle, hrx, .inr (.inl rfl),
      fun _ => .inl rfl⟩

theorem struck_ceased (o : Origin) (h : Modes s) (htx : s.bus.tx.isSome) : Ceased (s.struck o) := by
  obtain ⟨-, hidle, hrx, hstrikes, hpart⟩ := h.sending htx
  have hcounted : Steady s.stopDriving.countStrike := countStrike_steady (stopDriving_steady h htx) rfl
  have hstep := giveBackStruck_engineStep o s.stopDriving.countStrike
  have hcomp := (giveBackStruck_outside o s.stopDriving.countStrike).comp
  have hgiven := hcounted.engine hstep (by rw [hcomp]) (by rw [hcomp]) (fun hp => absurd hpart hp)
  have hbus := hstep.bus
  have hidle' : (s.stopDriving.countStrike.giveBackStruck o).bus.idle = false := by rw [hbus]; exact hidle
  have hrx' : (s.stopDriving.countStrike.giveBackStruck o).bus.rx = none := by rw [hbus]; exact hrx
  have hctrl' : (s.stopDriving.countStrike.giveBackStruck o).bus.ctrl = .listening := by rw [hbus]; rfl
  unfold State.struck
  dsimp only
  split
  case isTrue hs => exact restOrStop_ceased hgiven hidle' hrx' hctrl' hs
  case isFalse hs => exact ⟨hgiven, hidle', hrx', .inl hctrl', fun he => absurd he hs⟩

theorem completeOwn_modes (f : Frame) (h : Modes s) (htx : s.bus.tx.isSome) : Modes (s.completeOwn f) := by
  obtain ⟨hctrl, hidle, hrx, hstrikes, hpart⟩ := h.sending htx
  obtain ⟨h1, h2, h3, h4, h5, h6, h8, h10, h11, h12, h13, h14, h16, h17⟩ := h.steady
  simp only [hctrl] at *
  refine modes_iff.mpr ⟨?_, ?_⟩ <;> constructor <;> simp_all [State.completeOwn, State.stopDriving] <;> omega

theorem reportCompletion_modes (o : Origin) (h : Modes s) : Modes (s.reportCompletion o) := by
  unfold State.reportCompletion
  split
  · exact h.engineOps (offerSent_ops _ s)
  · exact h
  · exact h
  · exact h.cargo (removeEntry_cargoStep _ _ _ _)

/-! ## The events of the bus controller -/

theorem idle_modes (h : Modes s) (hrx : s.bus.rx = none)
    (hctrl : s.bus.ctrl = .listening ∨ s.bus.ctrl = .resting ∨ s.bus.ctrl = .silenced) :
    Modes (s.setBus { s.bus with idle := true, idleDue := none }) := by
  obtain ⟨h1, h2, h3, h4, h5, h6, h7, h8, h9, h10, h11, h12, h13, h14, h15, h16, h17⟩ := h
  constructor <;> simp <;> first | assumption | simp_all

theorem execBusIdle_modes (h : Modes s) (he : execBusIdle s = .next t) : Modes t := by
  unfold execBusIdle at he
  split at he
  case isTrue hw =>
    obtain rfl := Host.Outcome.next.inj he
    have hdue : Modes (s.advanceToDue s.bus.idleDue) := by cases s.bus.idleDue <;> exact h.congr rfl rfl rfl rfl
    have hbus : (s.advanceToDue s.bus.idleDue).bus = s.bus := by cases s.bus.idleDue <;> rfl
    obtain ⟨hmodes, hrx, hctrl⟩ := idleReception_modes hdue (by rw [hbus]; exact hw.1)
    exact atIdle_modes (idle_modes hmodes hrx hctrl)
  case isFalse =>
    obtain rfl := Host.Outcome.next.inj he
    exact h

theorem startBit_modes (h : Modes s) (hidle : s.bus.idle = true) (d : Ticks) :
    Modes (s.setBus { s.bus with
      ctrl := if s.bus.ctrl = .listening then .receiving else s.bus.ctrl
      idle := false, idleDue := some d, intermissionEnd := none
      selected := none, rx := some .afterStart }) := by
  have hctrl := (h.idleBus hidle).2.2
  obtain ⟨h1, h2, h3, h4, h5, h6, h7, h8, h9, h10, h11, h12, h13, h14, h15, h16, h17⟩ := h
  obtain hc | hc | hc := hctrl <;> constructor <;> simp [hc] <;> simp_all

theorem execStartBitSeen_modes (h : Modes s) (he : execStartBitSeen s = .next t) : Modes t := by
  unfold execStartBitSeen at he
  split at he
  case isTrue hw =>
    split at he <;> obtain rfl := Host.Outcome.next.inj he
    case isTrue hidle => exact startBit_modes h hidle _
    case isFalse hidle =>
      obtain ⟨h1, h2, h3, h4, h5, h6, h7, h8, h9, h10, h11, h12, h13, h14, h15, h16, h17⟩ := h
      constructor <;> simp <;> first | assumption | simp_all
  case isFalse =>
    obtain rfl := Host.Outcome.next.inj he
    exact h

theorem execFrameReceived_modes (bits : List Bool) (h : Modes s) (he : execFrameReceived bits s = .next t) :
    Modes t := by
  unfold execFrameReceived at he
  split at he <;> obtain rfl := Host.Outcome.next.inj he
  case h_1 r hrx =>
    obtain ⟨hsteady, hidle, -, hctrl, hsixteen⟩ := h.rx_ctrl (by simp [hrx])
    exact receive_modes _ _ hsteady hidle hctrl hsixteen
  case h_2 => exact h

theorem execLostArbitration_modes (bit : Nat) (h : Modes s) (he : execLostArbitration bit s = .next t) :
    Modes t := by
  unfold execLostArbitration at he
  split at he
  · obtain rfl := Host.Outcome.next.inj he
    exact h
  case h_2 x htx =>
    have hsome : s.bus.tx.isSome := by simp [htx]
    split at he <;> obtain rfl := Host.Outcome.next.inj he
    · exact (giveBack_ceased _ (stopDriving_ceased h hsome) (h.sending hsome).2.2.2.2).receiveOwn _ _
    · exact h

theorem execDominantReadRecessive_modes (bit : Nat) (h : Modes s)
    (he : execDominantReadRecessive s bit = .next t) : Modes t := by
  unfold execDominantReadRecessive at he
  split at he
  · obtain rfl := Host.Outcome.next.inj he
    exact h
  case h_2 x htx =>
    have hsome : s.bus.tx.isSome := by simp [htx]
    split at he <;> obtain rfl := Host.Outcome.next.inj he
    · exact (giveBack_ceased _ (stopDriving_ceased h hsome) (h.sending hsome).2.2.2.2).awaitIdle _ _
    · exact h

theorem execStrike_modes (bit : Nat) (h : Modes s) (he : execStrike bit s = .next t) : Modes t := by
  unfold execStrike at he
  split at he
  · obtain rfl := Host.Outcome.next.inj he
    exact h
  case h_2 x htx =>
    have hstruck := struck_ceased x.origin h (by simp [htx])
    split at he
    · dsimp only at he
      split at he <;> obtain rfl := Host.Outcome.next.inj he
      · exact hstruck.receiveOwn _ _
      · exact hstruck.awaitIdle _ _
    · obtain rfl := Host.Outcome.next.inj he
      exact h

theorem execCleanCompletion_modes (h : Modes s) (he : execCleanCompletion s = .next t) : Modes t := by
  unfold execCleanCompletion at he
  split at he <;> obtain rfl := Host.Outcome.next.inj he
  · exact h
  case h_2 x htx => exact reportCompletion_modes _ (completeOwn_modes _ h (by simp [htx]))

theorem restEnds_modes (h : Modes s) (hctrl : s.bus.ctrl = .resting) : Modes (s.setBus { s.bus with
    ctrl := if s.bus.rx.isSome then .receiving else .listening
    strikes := 8, restDue := none }) := by
  have hcounting := h.counting (by simp [Bus.watches, hctrl])
  obtain ⟨h1, h2, h3, h4, h5, h6, h7, h8, h9, h10, h11, h12, h13, h14, h15, h16, h17⟩ := h
  simp only [hctrl] at *
  cases hrx : s.bus.rx <;> constructor <;> simp_all [Bus.watches]

theorem execRestTimerExpiry_modes (h : Modes s) (he : execRestTimerExpiry s = .next t) : Modes t := by
  unfold execRestTimerExpiry at he
  split at he
  · obtain rfl := Host.Outcome.next.inj he
    exact h
  · split at he <;> obtain rfl := Host.Outcome.next.inj he
    case isTrue hc => exact restEnds_modes (h.advanceTo _) hc
    case isFalse => exact h

theorem intermissionEnd_modes (h : Modes s) (x : Option Ticks) :
    Modes (s.setBus { s.bus with intermissionEnd := x }) := by
  obtain ⟨h1, h2, h3, h4, h5, h6, h7, h8, h9, h10, h11, h12, h13, h14, h15, h16, h17⟩ := h
  constructor <;> simpa

theorem execIntermissionPassed_modes (h : Modes s) (he : execIntermissionPassed s = .next t) : Modes t := by
  unfold execIntermissionPassed at he
  split at he
  · obtain rfl := Host.Outcome.next.inj he
    exact h
  case h_2 x hx =>
    have hpassed := intermissionEnd_modes (h.advanceTo x) none
    dsimp only at he
    split at he <;> obtain rfl := Host.Outcome.next.inj he
    · exact atIdle_modes hpassed
    · exact hpassed

/-! ## The events of the chain units -/

theorem setChain_modes (h : Modes s) (e : End) (u : ChainUnit) : Modes (s.setChain e u) := by
  cases e <;> exact h.congr rfl rfl rfl rfl

theorem syncDrive_modes (h : Modes s) (e : End) : Modes (s.syncDrive e) := by
  unfold State.syncDrive
  dsimp only
  split
  · exact setChain_modes h _ _
  · exact setChain_modes h _ _
  · exact h

theorem chainChanged_modes (e : End) (before : Triple) (h : Modes s) : Modes (s.chainChanged e before) := by
  unfold State.chainChanged
  dsimp only
  split
  · exact h
  · refine Modes.trigger ?_ _ fun hr => by split_ifs at hr
    exact ((setChain_modes h _ _).cargo (notify_cargoStep _ _)).cargo (notifyIf_cargoStep _ _ _)

theorem changeUnit_modes (e : End) (f : ChainUnit → ChainUnit) (h : Modes s) : Modes (s.changeUnit e f) :=
  chainChanged_modes _ _ ((syncDrive_modes (setChain_modes h _ _) _).cargo (notifyIf_cargoStep _ _ _))

theorem decoderEvent_modes (e : End) (f : Decoder → Decoder) (h : Modes s) : Modes (s.decoderEvent e f) := by
  unfold State.decoderEvent
  split
  · exact changeUnit_modes e _ h
  · exact h

/-- What the events of the chain units change is the clock, the chain units and what a chain change sets off. -/
theorem execPeriodBoundary_modes (e : End) (h : Modes s) (he : execPeriodBoundary e s = .next t) : Modes t := by
  unfold execPeriodBoundary at he
  dsimp only at he
  split at he <;> obtain rfl := Host.Outcome.next.inj he
  · exact h
  · exact setChain_modes (h.advanceTo _) _ _

theorem execCompletedPeriod_modes (e : End) (p k : Nat) (h : Modes s)
    (he : execCompletedPeriod e p k s = .next t) : Modes t := by
  unfold execCompletedPeriod at he
  split at he <;> obtain rfl := Host.Outcome.next.inj he
  · exact decoderEvent_modes _ _ (h.advanceTo _)
  · exact h

theorem execLoss_modes (e : End) (h : Modes s) (he : execLoss e s = .next t) : Modes t := by
  unfold execLoss at he
  split at he <;> obtain rfl := Host.Outcome.next.inj he
  · exact decoderEvent_modes _ _ (h.advanceTo _)
  · exact h

theorem execPartingSensed_modes (e : End) (h : Modes s) (he : execPartingSensed e s = .next t) : Modes t := by
  unfold execPartingSensed at he
  split at he <;> obtain rfl := Host.Outcome.next.inj he
  · exact decoderEvent_modes _ _ (h.advanceTo _)
  · exact h

theorem execStuckHigh_modes (e : End) (h : Modes s) (he : execStuckHigh e s = .next t) : Modes t := by
  unfold execStuckHigh at he
  split at he
  · obtain rfl := Host.Outcome.next.inj he
    exact h
  · split at he <;> obtain rfl := Host.Outcome.next.inj he
    · exact decoderEvent_modes _ _ (h.advanceTo _)
    · exact h

/-! ## The timers of the composition engine -/

theorem execQuietHoldEnd_modes (h : Modes s) (he : execQuietHoldEnd s = .next t) : Modes t := by
  unfold execQuietHoldEnd at he
  split at he
  · obtain rfl := Host.Outcome.next.inj he
    exact h
  · split at he <;> obtain rfl := Host.Outcome.next.inj he
    case isTrue hq => exact sendWaiting_modes ((h.advanceTo _).engineOps (enterOffer_ops (by simp [State.live, hq])))
    case isFalse => exact h

theorem execCadenceTimer_modes (h : Modes s) (he : execCadenceTimer s = .next t) : Modes t := by
  unfold execCadenceTimer at he
  split at he
  · obtain rfl := Host.Outcome.next.inj he
    exact h
  · split at he
    case isTrue ho =>
      obtain rfl := Host.Outcome.next.inj he
      refine sendWaiting_modes (((h.advanceTo _).engineOps (restartCadence_outside_mark _)).engineOps
        (buildOffer_ops ?_))
      simp [State.restartCadence, State.live, ho]
    case isFalse =>
      split at he <;> obtain rfl := Host.Outcome.next.inj he
      case isTrue hc => exact sendWaiting_modes ((h.advanceTo _).engineOps (ownConfirm_ops (by simp [State.live, hc])))
      case isFalse => exact h

theorem execLastEntryTimeout_modes (h : Modes s) (he : execLastEntryTimeout s = .next t) : Modes t := by
  unfold execLastEntryTimeout at he
  split at he
  · obtain rfl := Host.Outcome.next.inj he
    exact h
  · split at he <;> obtain rfl := Host.Outcome.next.inj he
    · exact sendWaiting_modes ((h.advanceTo _).engineOps (tryPlacement_ops _))
    · exact h

theorem execRoundDeadline_modes (h : Modes s) (he : execRoundDeadline s = .next t) : Modes t := by
  unfold execRoundDeadline at he
  split at he
  · obtain rfl := Host.Outcome.next.inj he
    exact h
  · split at he <;> obtain rfl := Host.Outcome.next.inj he
    case isTrue hr =>
      exact (h.advanceTo _).engineOps (roundFailed_ops (s := s.advanceTo _) (live_of_roundRunning hr))
    case isFalse => exact h

theorem execLimpRetry_modes (h : Modes s) (he : execLimpRetry s = .next t) : Modes t := by
  unfold execLimpRetry at he
  split at he
  · split at he <;> obtain rfl := Host.Outcome.next.inj he
    · exact (h.advanceTo _).engineOps (retry_ops _)
    · exact h
  · split at he <;> obtain rfl := Host.Outcome.next.inj he
    · exact h.engineOps (retry_ops _)
    · exact h

theorem execPresenceSchedulePoint_modes (h : Modes s) (he : execPresenceSchedulePoint s = .next t) : Modes t := by
  unfold execPresenceSchedulePoint at he
  split at he
  · split at he <;> obtain rfl := Host.Outcome.next.inj he
    case isTrue hd =>
      exact sendWaiting_modes ((h.advanceTo _).engineOps
        (buildPresence_ops (s := s.advanceTo _) _ _ (live_of_gateOpen hd)))
    case isFalse => exact h
  · obtain rfl := Host.Outcome.next.inj he
    exact h

theorem execMemberLost_modes (id : Identity) (h : Modes s) (he : execMemberLost id s = .next t) : Modes t := by
  unfold execMemberLost at he
  split at he
  · obtain rfl := Host.Outcome.next.inj he
    exact h
  · split at he <;> obtain rfl := Host.Outcome.next.inj he
    · exact ((h.advanceTo _).engineOps (setAside_ops _ _)).trigger _ nofun
    · exact h

/-! ## Grade windows and lifetimes -/

theorem execWindowEnd_modes (h : Modes s) (he : execWindowEnd s = .next t) : Modes t := by
  unfold execWindowEnd at he
  split at he
  · obtain rfl := Host.Outcome.next.inj he
    exact h
  case h_2 d hd =>
    have hended : Modes ((s.advanceTo d).setGrade (s.grade.endWindow d)) :=
      (h.advanceTo d).grade _ (by simp [GradeMonitor.endWindow, hd])
    dsimp only at he
    split at he <;> obtain rfl := Host.Outcome.next.inj he
    · exact hended
    · exact (hended.cargo (notify_cargoStep _ _)).trigger _ nofun

theorem execLifetimeExpiry_modes (ticket : Nat) (h : Modes s) (he : execLifetimeExpiry ticket s = .next t) :
    Modes t := by
  unfold execLifetimeExpiry at he
  split at he
  · obtain rfl := Host.Outcome.next.inj he
    exact h
  · split at he
    · obtain rfl := Host.Outcome.next.inj he
      exact h
    · split at he <;> obtain rfl := Host.Outcome.next.inj he
      · exact (h.advanceTo _).cargo (mapEntry_cargoStep _ _ _)
      · exact (h.advanceTo _).cargo (removeEntry_cargoStep _ _ _ _)

end Sys2Proof.Machine
end

section
/-! The commands of the local port keep the modes together, and with them every step does (R154 to R165). -/

namespace Sys2Proof.Machine

variable {s t : State}

/-! ## The local port -/

/-- A change of the port that leaves part state and image, and marks nothing while RESETN is held low. -/
theorem Modes.port (h : Modes s) {p : Port} (hpart : p.part = s.port.part) (himage : p.image = s.port.image)
    (hreset : p.inReset = true → s.port.inReset = true ∧ p.csn = s.port.csn ∧ p.busy = s.port.busy) :
    Modes (s.setPort p) := by
  obtain ⟨h1, h2, h3, h4, h5, h6, h7, h8, h9, h10, h11, h12, h13, h14, h15, h16, h17⟩ := h
  constructor
  case inReset =>
    intro hr
    obtain ⟨hs, hcsn, hbusy⟩ := hreset hr
    simp only [State.setPort_port, hpart, hcsn, hbusy]
    exact h17 hs
  all_goals simpa only [State.setPort_port, State.setPort_bus, State.setPort_comp, State.setPort_grade, hpart, himage]

theorem Modes.not_inReset (h : Modes s) (hcsn : s.port.csn.isSome) : s.port.inReset = false := by
  by_contra hr
  have := (h.inReset (by simpa using hr)).2.1
  simp [this] at hcsn

theorem csnFalls_modes (h : Modes s) : Modes s.csnFalls := by
  unfold State.csnFalls
  split
  case isTrue => exact h
  case isFalse hr => exact h.port rfl rfl fun hr' => absurd hr' hr

theorem clockOut_modes (n : Nat) (data : List Byte) (h : Modes s) (hr : s.port.inReset = false) :
    Modes (s.clockOut n data) := h.port rfl rfl fun hr' => absurd hr' (by simp [hr])

theorem overrun_modes (h : Modes s) : Modes s.overrun := h.port rfl rfl fun hr => ⟨hr, rfl, rfl⟩

theorem leaveAnswer_modes (answer : List Byte) (h : Modes s) (hr : s.port.inReset = false) :
    Modes (s.leaveAnswer answer) := h.port rfl rfl fun hr' => absurd hr' (by simp [hr])

/-- A command taken with RESETN high keeps the modes together where what it does keeps them and the line high. -/
theorem takeCommand_modes (x : Transfer) {run : List Byte → State → State × List Byte} (h : Modes s)
    (hrun : ∀ p u, Modes u → u.port.inReset = false → Modes (run p u).1 ∧ (run p u).1.port.inReset = false) :
    Modes (s.takeCommand x run) := by
  obtain he | he | ⟨hcsn, n, he | he | ⟨-, p, he⟩⟩ := takeCommand_cases x run s
  all_goals rw [he]
  · exact csnFalls_modes h
  · exact h
  · exact clockOut_modes n [] h (h.not_inReset hcsn)
  · exact overrun_modes (clockOut_modes n [] h (h.not_inReset hcsn))
  · obtain ⟨hm, hr⟩ := hrun p (s.clockOut n []) (clockOut_modes n [] h (h.not_inReset hcsn)) (h.not_inReset hcsn)
    exact leaveAnswer_modes _ hm hr

theorem transfer_modes (x : Transfer) {run : List Bool → State → State} (h : Modes s)
    (hrun : ∀ bits, s.port.inReset = false → Modes (run bits s)) : Modes (s.transfer x run) := by
  cases x with
  | csnFalls => exact csnFalls_modes h
  | csnRises bits =>
    simp only [State.transfer]
    split
    case isTrue hc => exact hrun bits (h.not_inReset hc)
    case isFalse => exact h
  | statusRead n =>
    simp only [State.transfer]
    split
    case isTrue hc => exact clockOut_modes n [] h (h.not_inReset hc)
    case isFalse => exact h

/-! ## What the commands leave of the port -/

/-- A chain change gives the port flags alone. -/
theorem chainChanged_gains (e : End) (before : Triple) (s : State) : s.port.gains (s.chainChanged e before).port := by
  unfold State.chainChanged
  dsimp only
  split
  · exact Port.gains_refl _
  · refine Port.gains_trans ?_ (trigger_engineStep _ _).port
    refine Port.gains_trans ?_ (notifyIf_cargoStep _ _ _).port
    have hport := (notify_cargoStep .chain
      (s.setChain e.other { s.chain e.other with drv := (s.chain e.other).drv.follow (s.report e).count })).port
    rwa [State.setChain_port] at hport

/-- The drive conditions touch the chain units alone. -/
theorem syncDrive_cases (e : End) (s : State) :
    s.syncDrive e = s ∨ ∃ drv, s.syncDrive e = s.setChain e { s.chain e with drv := drv } := by
  unfold State.syncDrive
  dsimp only
  split
  · exact .inr ⟨_, rfl⟩
  · exact .inr ⟨_, rfl⟩
  · exact .inl rfl

@[simp] theorem syncDrive_port (e : End) (s : State) : (s.syncDrive e).port = s.port := by
  obtain he | ⟨drv, he⟩ := syncDrive_cases e s <;> simp [he]

@[simp] theorem syncDrive_now (e : End) (s : State) : (s.syncDrive e).now = s.now := by
  obtain he | ⟨drv, he⟩ := syncDrive_cases e s <;> simp [he]

@[simp] theorem syncDrive_bus (e : End) (s : State) : (s.syncDrive e).bus = s.bus := by
  obtain he | ⟨drv, he⟩ := syncDrive_cases e s <;> simp [he]

@[simp] theorem syncDrive_comp (e : End) (s : State) : (s.syncDrive e).comp = s.comp := by
  obtain he | ⟨drv, he⟩ := syncDrive_cases e s <;> simp [he]

@[simp] theorem syncDrive_cargo (e : End) (s : State) : (s.syncDrive e).cargo = s.cargo := by
  obtain he | ⟨drv, he⟩ := syncDrive_cases e s <;> simp [he]

@[simp] theorem syncDrive_grade (e : End) (s : State) : (s.syncDrive e).grade = s.grade := by
  obtain he | ⟨drv, he⟩ := syncDrive_cases e s <;> simp [he]

@[simp] theorem syncDrive_pending (e : End) (s : State) : (s.syncDrive e).pending = s.pending := by
  obtain he | ⟨drv, he⟩ := syncDrive_cases e s <;> simp [he]

theorem changeUnit_gains (e : End) (f : ChainUnit → ChainUnit) (s : State) :
    s.port.gains (s.changeUnit e f).port := by
  refine Port.gains_trans (Port.gains_trans ?_ (notifyIf_cargoStep _ _ _).port) (chainChanged_gains e _ _)
  rw [syncDrive_port, State.setChain_port]
  exact Port.gains_refl _

theorem Port.gains_inReset {p q : Port} (h : p.gains q) : q.inReset = p.inReset := by rw [h.1]

theorem EngineStep.inReset (h : EngineStep s t) : t.port.inReset = s.port.inReset := Port.gains_inReset h.port

theorem CargoStep.inReset (h : CargoStep s t) : t.port.inReset = s.port.inReset := Port.gains_inReset h.port

/-! ## START and RESTART -/

/-- A part that has just begun to run, with a listening controller and the engine in a round. -/
theorem Modes.of_listening (hpart : t.port.part = .running) (himage : t.port.image.isSome)
    (hreset : t.port.inReset = false) (hlive : t.live) (hctrl : t.bus.ctrl = .listening) (htx : t.bus.tx = none)
    (hrx : t.bus.rx = none) (hidle : t.bus.idle = false) (hdue : t.bus.idleDue.isSome)
    (hrest : t.bus.restDue = none) (hstrikes : t.bus.strikes < 16) (hwindow : t.grade.windowDue.isSome) :
    Modes t := by
  have hidle := hlive.1
  have hhalted := hlive.2
  constructor <;> simp_all <;> omega

theorem trigger_start_live (hidle : s.comp.state = .idle) : (s.trigger .start).live := by
  unfold State.trigger
  simp [hidle, State.live, State.raiseEpoch, changeEpoch_comp]

theorem releasedAtStart_modes (e : End) (h : Modes s) : Modes (s.releasedAtStart e) := by
  unfold State.releasedAtStart
  split
  · exact chainChanged_modes _ _ h
  · exact h

theorem releasedAtStart_gains (e : End) (s : State) : s.port.gains (s.releasedAtStart e).port := by
  unfold State.releasedAtStart
  split
  · exact chainChanged_gains _ _ _
  · exact Port.gains_refl _

/-- START prepares the blocks, gives the START trigger, and then makes the chain changes of released ends. -/
theorem begin_cases (s : State) : ∃ u : State,
    s.begin = ((u.trigger .start).releasedAtStart .a).releasedAtStart .b ∧
      u.port = { s.port with part := .running, cab := .inactive } ∧ u.bus = s.bus.listen s.now ∧
      u.grade = s.grade.begin s.now ∧ u.comp = s.comp := by
  refine ⟨_, rfl, ?_, ?_, ?_, ?_⟩ <;> simp

theorem begin_modes (h : Modes s) (hpart : s.port.part = .unconfigured) (himage : s.port.image.isSome)
    (hr : s.port.inReset = false) : Modes s.begin ∧ s.begin.port.inReset = false := by
  have hctrl := h.offIff.mpr hpart
  obtain ⟨u, hu, hport, hbus, hgrade, hcomp⟩ := begin_cases s
  have hstep := trigger_engineStep .start u
  have htport := hstep.port.1
  have htbus := hstep.bus
  have htx : s.bus.tx = none := by simpa [hctrl] using h.txIff
  have hrx : s.bus.rx = none := by simpa [hctrl] using h.rx
  have hrest : s.bus.restDue = none := by simpa [hctrl] using h.restIff
  have hstrikes : s.bus.strikes ≠ 16 := by simpa [hctrl] using h.sixteen
  have hmax := h.strikes
  have htrigger : Modes (u.trigger .start) := by
    refine .of_listening (by rw [htport, hport]) (by rw [htport, hport]; exact himage)
      (by rw [htport, hport]; exact hr) (trigger_start_live (hcomp ▸ h.idleIff.mpr hpart))
      (by rw [htbus, hbus]; rfl) (by rw [htbus, hbus]; exact htx) (by rw [htbus, hbus]; exact hrx)
      (by rw [htbus, hbus]; rfl) (by rw [htbus, hbus]; rfl) (by rw [htbus, hbus]; exact hrest)
      (by rw [htbus, hbus]; exact Nat.lt_of_le_of_ne hmax hstrikes) (by rw [hstep.grade, hgrade]; rfl)
  rw [hu]
  refine ⟨releasedAtStart_modes _ (releasedAtStart_modes _ htrigger), ?_⟩
  rw [Port.gains_inReset (releasedAtStart_gains _ _), Port.gains_inReset (releasedAtStart_gains _ _), hstep.inReset,
    hport]
  exact hr

theorem restart_modes (h : Modes s) (hpart : s.port.part ≠ .unconfigured) (hr : s.port.inReset = false) :
    Modes s.restart ∧ s.restart.port.inReset = false := by
  refine ⟨?_, hr⟩
  exact .of_listening rfl (h.image hpart) hr (by simp [State.live, State.restart, State.raiseEpoch, changeEpoch_comp])
    rfl rfl rfl rfl rfl rfl (Nat.zero_lt_succ 15) rfl

/-! ## The other commands -/

theorem setCab_modes (x : CabSetting) (h : Modes s) : Modes (s.setCab x) := by
  unfold State.setCab
  split
  · exact h
  · exact Modes.trigger (h.port (p := { s.port with cab := x }) rfl rfl fun hr => ⟨hr, rfl, rfl⟩) .cab nofun

theorem setCab_inReset (x : CabSetting) (s : State) : (s.setCab x).port.inReset = s.port.inReset := by
  unfold State.setCab
  split
  · rfl
  · rw [(trigger_engineStep _ _).inReset]
    rfl

/-- A command keeps the modes together and RESETN high. -/
def KeepsModes (run : List Byte → State → State × List Byte) : Prop :=
  ∀ p u, Modes u → u.port.inReset = false → Modes (run p u).1 ∧ (run p u).1.port.inReset = false

theorem startCommand_keepsModes : KeepsModes State.startCommand := by
  intro p u h hr
  unfold State.startCommand
  split
  case isTrue => exact ⟨h, hr⟩
  case isFalse hs =>
    split
    case isTrue => exact ⟨h, hr⟩
    case isFalse hi =>
      refine begin_modes h (by simpa [State.started] using hs) ?_ hr
      simpa [Option.isSome_iff_ne_none] using hi

theorem restartCommand_keepsModes : KeepsModes State.restartCommand := by
  intro p u h hr
  unfold State.restartCommand
  split
  case isTrue hs => exact restart_modes h (started_iff.mp hs) hr
  case isFalse => exact ⟨h, hr⟩

theorem configure_keepsModes : KeepsModes State.configure := by
  intro p u h hr
  obtain hc | ⟨hu, i, mask, hc, -⟩ := configure_cases p u
  · rw [hc]
    exact ⟨h, hr⟩
  · rw [hc]
    have hpart : u.port.part = .unconfigured := by simpa [State.started] using hu
    refine ⟨Modes.grade (?_ : Modes (u.setPort { u.port with image := some i, mask := mask })) _ rfl, hr⟩
    obtain ⟨h1, h2, h3, h4, h5, h6, h7, h8, h9, h10, h11, h12, h13, h14, h15, h16, h17⟩ := h
    constructor
    case image => exact fun _ => rfl
    all_goals simpa

theorem setCabCommand_keepsModes : KeepsModes State.setCabCommand := by
  intro p u h hr
  unfold State.setCabCommand
  split
  · split
    · split
      · split
        · exact ⟨setCab_modes _ h, (setCab_inReset _ u).trans hr⟩
        · exact ⟨h, hr⟩
      · exact ⟨h, hr⟩
    · exact ⟨h, hr⟩
  · exact ⟨h, hr⟩

theorem isolate_keepsModes (e : End) (on : Bool) (h : Modes s) (hr : s.port.inReset = false) :
    Modes (s.isolate e on) ∧ (s.isolate e on).port.inReset = false :=
  ⟨changeUnit_modes e _ h, (Port.gains_inReset (changeUnit_gains e _ s)).trans hr⟩

theorem isolateCommand_keepsModes : KeepsModes State.isolateCommand := by
  intro p u h hr
  unfold State.isolateCommand
  split
  · split
    · split
      · exact ⟨h, hr⟩
      · split
        · exact isolate_keepsModes _ _ h hr
        · split
          · exact isolate_keepsModes _ _ h hr
          · exact ⟨h, hr⟩
    · exact ⟨h, hr⟩
  · exact ⟨h, hr⟩

theorem recomposeCommand_keepsModes : KeepsModes State.recomposeCommand := by
  intro p u h hr
  unfold State.recomposeCommand
  split
  · exact ⟨h.trigger _ nofun, (trigger_engineStep _ u).inReset.trans hr⟩
  · exact ⟨h, hr⟩

/-- The commands that change the cargo router alone. -/
theorem keepsModes_of_cargo {run : List Byte → State → State × List Byte}
    (hrun : ∀ p u, CargoStep u (run p u).1) : KeepsModes run :=
  fun p u h hr => ⟨h.cargo (hrun p u), (hrun p u).inReset.trans hr⟩

theorem submitCommand_cargoStep (p : List Byte) (s : State) : CargoStep s (s.submitCommand p).1 := by
  unfold State.submitCommand
  split
  · split
    · split
      · exact .refl s
      · unfold State.submitChecks
        split
        · exact .refl s
        · split_ifs
          · exact .refl s
          · exact .refl s
          · exact .refl s
          · exact setCargo_cargoStep _ s
    · exact .refl s
  · exact .refl s

theorem withdrawCommand_cargoStep (p : List Byte) (s : State) : CargoStep s (s.withdrawCommand p).1 := by
  unfold State.withdrawCommand
  split
  · split
    · unfold State.withdrawTicket
      split
      · exact .refl s
      · split
        · exact .refl s
        · exact removeEntry_cargoStep _ _ _ s
    · exact .refl s
  · exact .refl s

theorem takeArrival_cargoStep (p : List Byte) (s : State) : CargoStep s (s.takeArrival p).1 := by
  unfold State.takeArrival
  split
  · split
    · exact .refl s
    · exact setCargo_cargoStep _ s
  · exact .refl s

theorem readOutcomesCommand_cargoStep (p : List Byte) (s : State) : CargoStep s (s.readOutcomesCommand p).1 := by
  unfold State.readOutcomesCommand
  split
  · split
    · exact .refl s
    · exact setCargo_cargoStep _ s
  · exact .refl s

/-- READ ROSTER answers and changes nothing. -/
theorem readRosterCommand_fst (p : List Byte) (s : State) : (s.readRosterCommand p).1 = s := by
  unfold State.readRosterCommand
  split
  · split
    · unfold State.answerRoster
      split_ifs <;> (try split) <;> rfl
    · rfl
  · rfl

theorem readRosterCommand_cargoStep (p : List Byte) (s : State) : CargoStep s (s.readRosterCommand p).1 := by
  rw [readRosterCommand_fst]
  exact .refl s

theorem readEventsCommand_keepsModes : KeepsModes State.readEventsCommand :=
  fun _ _ h hr => ⟨h.port rfl rfl fun hr => ⟨hr, rfl, rfl⟩, hr⟩

/-! ## Hardware resets and the step -/

theorem hardwareReset_modes (s : State) : Modes s.hardwareReset := by
  constructor <;> simp [State.hardwareReset, State.reset, Bus.reset, Comp.reset, GradeMonitor.reset, Port.reset,
    Bus.watches]

theorem execHardwareReset_modes (edge : ResetEdge) (h : Modes s) (he : execHardwareReset s edge = .next t) :
    Modes t := by
  cases edge <;> obtain rfl := Host.Outcome.next.inj he
  case powerOn => exact hardwareReset_modes s
  case resetnFalls =>
    have hm := hardwareReset_modes s
    obtain ⟨h1, h2, h3, h4, h5, h6, h7, h8, h9, h10, h11, h12, h13, h14, h15, h16, h17⟩ := hm
    constructor
    case inReset => exact fun _ => ⟨rfl, rfl, rfl⟩
    all_goals assumption
  case resetnRises => exact h.port rfl rfl nofun

theorem execAnswerReady_modes (h : Modes s) (he : execAnswerReady s = .next t) : Modes t := by
  obtain rfl := Host.Outcome.next.inj he
  split
  case isTrue hb => exact h.port rfl rfl fun hr => absurd hb (by simp [(h.inReset hr).2.2])
  case isFalse => exact h

theorem execCommandOverrun_modes (x : Transfer) (h : Modes s) (he : execCommandOverrun s x = .next t) : Modes t := by
  obtain rfl := Host.Outcome.next.inj he
  refine transfer_modes x h fun bits hr => ?_
  split
  · exact overrun_modes (clockOut_modes _ _ h hr)
  · exact h

theorem exec_modes {c : Instr} (h : Modes s) (he : exec c s = .next t) : Modes t := by
  cases c with
  | configure x => exact Host.Outcome.next.inj he ▸ takeCommand_modes x h configure_keepsModes
  | hardwareReset edge => exact execHardwareReset_modes edge h he
  | start x => exact Host.Outcome.next.inj he ▸ takeCommand_modes x h startCommand_keepsModes
  | restart x => exact Host.Outcome.next.inj he ▸ takeCommand_modes x h restartCommand_keepsModes
  | setCab x => exact Host.Outcome.next.inj he ▸ takeCommand_modes x h setCabCommand_keepsModes
  | isolate x => exact Host.Outcome.next.inj he ▸ takeCommand_modes x h isolateCommand_keepsModes
  | recompose x => exact Host.Outcome.next.inj he ▸ takeCommand_modes x h recomposeCommand_keepsModes
  | submit x =>
    exact Host.Outcome.next.inj he ▸ takeCommand_modes x h (keepsModes_of_cargo submitCommand_cargoStep)
  | withdraw x =>
    exact Host.Outcome.next.inj he ▸ takeCommand_modes x h (keepsModes_of_cargo withdrawCommand_cargoStep)
  | take x => exact Host.Outcome.next.inj he ▸ takeCommand_modes x h (keepsModes_of_cargo takeArrival_cargoStep)
  | readOutcomes x =>
    exact Host.Outcome.next.inj he ▸ takeCommand_modes x h (keepsModes_of_cargo readOutcomesCommand_cargoStep)
  | readRoster x =>
    exact Host.Outcome.next.inj he ▸ takeCommand_modes x h (keepsModes_of_cargo readRosterCommand_cargoStep)
  | readState x => exact Host.Outcome.next.inj he ▸ takeCommand_modes x h fun _ _ hm hr => ⟨hm, hr⟩
  | readEvents x => exact Host.Outcome.next.inj he ▸ takeCommand_modes x h readEventsCommand_keepsModes
  | readAnswer x => exact Host.Outcome.next.inj he ▸ transfer_modes x h fun _ hr => clockOut_modes _ _ h hr
  | commandOverrun x => exact execCommandOverrun_modes x h he
  | answerReady => exact execAnswerReady_modes h he
  | periodBoundary e => exact execPeriodBoundary_modes e h he
  | completedPeriod e p k => exact execCompletedPeriod_modes e p k h he
  | loss e => exact execLoss_modes e h he
  | partingSensed e => exact execPartingSensed_modes e h he
  | stuckHigh e => exact execStuckHigh_modes e h he
  | releaseAsserted e => exact Host.Outcome.next.inj he ▸ changeUnit_modes e _ h
  | releaseDeasserted e => exact Host.Outcome.next.inj he ▸ changeUnit_modes e _ h
  | busIdle => exact execBusIdle_modes h he
  | startBitSeen => exact execStartBitSeen_modes h he
  | frameReceived bits => exact execFrameReceived_modes bits h he
  | lostArbitration bit => exact execLostArbitration_modes bit h he
  | dominantReadRecessive bit => exact execDominantReadRecessive_modes bit h he
  | strike bit => exact execStrike_modes bit h he
  | cleanCompletion => exact execCleanCompletion_modes h he
  | restTimerExpiry => exact execRestTimerExpiry_modes h he
  | intermissionPassed => exact execIntermissionPassed_modes h he
  | quietHoldEnd => exact execQuietHoldEnd_modes h he
  | cadenceTimer => exact execCadenceTimer_modes h he
  | lastEntryTimeout => exact execLastEntryTimeout_modes h he
  | roundDeadline => exact execRoundDeadline_modes h he
  | limpRetry => exact execLimpRetry_modes h he
  | presenceSchedulePoint => exact execPresenceSchedulePoint_modes h he
  | memberLost id => exact execMemberLost_modes id h he
  | windowEnd => exact execWindowEnd_modes h he
  | lifetimeExpiry ticket => exact execLifetimeExpiry_modes ticket h he

/-- Settles O52: every command and event keeps the modes together, and a tick does not touch them. -/
theorem stepKeepsModes : Obligations.StepKeepsModes := by
  intro s t h hstep
  obtain rfl | ⟨c, rest, -, he⟩ := step_cases hstep
  · exact h.congr (tick_bus s) (tick_port s) (tick_comp s) (tick_grade s)
  · exact exec_modes (h.setPending rest) he

end Sys2Proof.Machine
end

section
/-! Every command and event but CONFIGURE, START, RESTART, READ EVENTS and a hardware reset as a sequence of moves of the
clock, the chain units, the port and the bus side; and what such a sequence keeps (R41, R43, R145, R155, R157, R167). -/

namespace Sys2Proof.Machine

variable {s t : State} {awake : Prop}

/-! ## The moves -/

/-- One move of the machine. `awake` stands for what is known of the state in which the command is taken: where it
holds, no bus controller's step starts the part. -/
inductive Move (awake : Prop) : State → State → Prop
  | controller {s t : State} (h : ControllerStep s t) (hs : awake → t.started = s.started) : Move awake s t
  | clock {s : State} (d : Ticks) : Move awake s (s.advanceTo d)
  | grade {s : State} (g : GradeMonitor) (h : g.limit = s.grade.limit) : Move awake s (s.setGrade g)
  | port {s : State} (p : Port) (hpart : p.part = s.port.part) (himage : p.image = s.port.image)
      (hmask : p.mask = s.port.mask) (hflags : p.flags = s.port.flags) : Move awake s (s.setPort p)
  | unit {s : State} (e : End) (f : ChainUnit → ChainUnit)
      (hdec : 1 ≤ s.k → DecoderOk s.k (s.chain e).dec → DecoderOk s.k (f (s.chain e)).dec)
      (hdrv : (f (s.chain e)).drv = (s.chain e).drv)
      (hrest : s.started = false → (f (s.chain e)).dec = (s.chain e).dec) : Move awake s (s.changeUnit e f)
  | boundary {s : State} (e : End) (d : Ticks) (h : (s.chain e).drv.periodFrom.isSome) :
      Move awake s (s.setChain e { s.chain e with
        drv := { (s.chain e).drv with loaded := (s.chain e).drv.pending, periodFrom := some d } })

/-- A sequence of moves. -/
abbrev Moves (awake : Prop) : State → State → Prop := Relation.ReflTransGen (Move awake)

theorem started_congr (h : t.port.part = s.port.part) : t.started = s.started := by simp only [State.started, h]

theorem Port.gains_part {p q : Port} (h : p.gains q) : q.part = p.part := by rw [h.1]

theorem EngineStep.moves (h : EngineStep s t) : Moves awake s t :=
  .single (.controller h.controller fun _ => started_congr (Port.gains_part h.port))

theorem CargoStep.moves (h : CargoStep s t) : Moves awake s t := h.engine.moves

theorem ControllerStep.moves (h : ControllerStep s t) (hs : awake → t.started = s.started) : Moves awake s t :=
  .single (.controller h hs)

theorem advanceTo_moves (d : Ticks) (s : State) : Moves awake s (s.advanceTo d) := .single (.clock d)

theorem transacts_moves {p : Port} (h : s.port.Transacts p) : Moves awake s (s.setPort p) :=
  .single (.port p (by rw [h]) (by rw [h]) (by rw [h]) (by rw [h]))

/-! ## The bus controller -/

theorem startFrame_part (x : Selection) (s : State) : (s.startFrame x).port.part = s.port.part := by
  unfold State.startFrame
  split
  · split <;> rfl
  · split <;> rfl

theorem select_part (s : State) : s.select.1.port.part = s.port.part := Port.gains_part (select_cargoStep s).port

theorem atIdle_part (s : State) : s.atIdle.port.part = s.port.part := by
  unfold State.atIdle
  dsimp only
  split
  · exact select_part s
  · split
    · exact (startFrame_part _ _).trans (select_part s)
    · exact select_part s

theorem atIdle_moves (s : State) : Moves awake s s.atIdle :=
  (atIdle_controllerStep s).moves fun _ => started_congr (atIdle_part s)

theorem sendWaiting_moves (s : State) : Moves awake s s.sendWaiting := by
  unfold State.sendWaiting
  split
  · exact atIdle_moves s
  · exact .refl

/-- Before START the bus controller neither sends nor receives, and does not watch the bus. -/
theorem Modes.off (h : Modes s) (hs : s.started = false) :
    s.bus.tx = none ∧ s.bus.rx = none ∧ s.bus.watches = false := by
  have hctrl := h.offIff.mpr (by simpa [State.started] using hs)
  refine ⟨?_, ?_, by simp [Bus.watches, hctrl]⟩
  · simpa [hctrl] using h.txIff
  · simpa [hctrl] using h.rx

/-- A change of the machine that begins after START ends after START. -/
theorem Ops.started (h : Ops True s t) (hs : Modes s) (ht : Modes t) (hstart : s.started = true) :
    t.started = true := by
  rw [started_iff] at hstart ⊢
  exact fun hp => h.begun (fun hi => hstart (hs.idleIff.mp hi)) (ht.idleIff.mpr hp)

/-- A command that keeps the modes together and does nothing before START does not start the part. -/
theorem started_of_ops (hs : Modes s) (ht : Modes t) (hops : Ops True s t)
    (hrest : s.started = false → t.started = false) : t.started = s.started := by
  cases hstart : s.started
  · exact hrest hstart
  · exact hops.started hs ht hstart

theorem execBusIdle_moves (hm : awake → Modes s) (h : execBusIdle s = .next t) : Moves awake s t := by
  have hkept (ha : awake) : t.started = s.started := by
    refine started_of_ops (hm ha) (execBusIdle_modes (hm ha) h) (execBusIdle_ops (fun _ => hm ha) h) fun hs => ?_
    simp only [execBusIdle, ((hm ha).off hs).2.2, Bool.false_eq_true, false_and, if_false] at h
    exact Host.Outcome.next.inj h ▸ hs
  unfold execBusIdle at h
  split at h
  · obtain rfl := Host.Outcome.next.inj h
    have hdue : Moves awake s (s.advanceToDue s.bus.idleDue) := by
      cases s.bus.idleDue
      · exact .refl
      · exact advanceTo_moves _ s
    have hport : (s.advanceToDue s.bus.idleDue).port = s.port := by cases s.bus.idleDue <;> rfl
    exact hdue.trans (ControllerStep.moves (((idleReception_controllerStep _).trans
      (setBus_controllerStep _ _ (by rfl))).trans (atIdle_controllerStep _))
      fun ha => (hkept ha).trans (started_congr (by rw [hport])))
  · obtain rfl := Host.Outcome.next.inj h
    exact .refl

theorem execStartBitSeen_moves (h : execStartBitSeen s = .next t) : Moves awake s t := by
  unfold execStartBitSeen at h
  split at h
  · split at h <;> obtain rfl := Host.Outcome.next.inj h <;>
      exact (setBus_controllerStep _ _ (by rfl)).moves fun _ => rfl
  · obtain rfl := Host.Outcome.next.inj h
    exact .refl

theorem execFrameReceived_moves (bits : List Bool) (hm : awake → Modes s) (h : execFrameReceived bits s = .next t) :
    Moves awake s t := by
  have hkept (ha : awake) : t.started = s.started := by
    refine started_of_ops (hm ha) (execFrameReceived_modes bits (hm ha) h)
      (execFrameReceived_ops bits (fun _ => hm ha) h) fun hs => ?_
    simp only [execFrameReceived, ((hm ha).off hs).2.1] at h
    exact Host.Outcome.next.inj h ▸ hs
  unfold execFrameReceived at h
  split at h <;> obtain rfl := Host.Outcome.next.inj h
  · exact (receive_controllerStep _ _ _).moves hkept
  · exact .refl

theorem execLostArbitration_moves (bit : Nat) (hm : awake → Modes s) (h : execLostArbitration bit s = .next t) :
    Moves awake s t := by
  have hkept (ha : awake) : t.started = s.started := by
    refine started_of_ops (hm ha) (execLostArbitration_modes bit (hm ha) h)
      (execLostArbitration_ops bit (fun _ => hm ha) h) fun hs => ?_
    simp only [execLostArbitration, ((hm ha).off hs).1] at h
    exact Host.Outcome.next.inj h ▸ hs
  unfold execLostArbitration at h
  split at h
  · obtain rfl := Host.Outcome.next.inj h
    exact .refl
  · split at h <;> obtain rfl := Host.Outcome.next.inj h
    · exact ((((stopDriving_controllerStep _).trans (giveBack_engineStep _ _).controller).trans
        (beginReceiving_controllerStep _)).trans (receiveOwn_controllerStep _ _ _)).moves hkept
    · exact .refl

theorem awaitIdle_part (f : Frame) (k : Nat) (s : State) : (s.awaitIdle f k).port.part = s.port.part := by
  unfold State.awaitIdle
  split <;> rfl

theorem execDominantReadRecessive_moves (bit : Nat) (h : execDominantReadRecessive s bit = .next t) :
    Moves awake s t := by
  unfold execDominantReadRecessive at h
  split at h
  · obtain rfl := Host.Outcome.next.inj h
    exact .refl
  · split at h <;> obtain rfl := Host.Outcome.next.inj h
    · refine (((stopDriving_controllerStep _).trans (giveBack_engineStep _ _).controller).trans
        (awaitIdle_controllerStep _ _ _)).moves fun _ => started_congr ?_
      exact (awaitIdle_part _ _ _).trans (Port.gains_part (giveBack_engineStep _ _).port)
    · exact .refl

theorem execStrike_moves (bit : Nat) (hm : awake → Modes s) (h : execStrike bit s = .next t) : Moves awake s t := by
  have hkept (ha : awake) : t.started = s.started := by
    refine started_of_ops (hm ha) (execStrike_modes bit (hm ha) h) (execStrike_ops bit (fun _ => hm ha) h) fun hs => ?_
    simp only [execStrike, ((hm ha).off hs).1] at h
    exact Host.Outcome.next.inj h ▸ hs
  unfold execStrike at h
  split at h
  · obtain rfl := Host.Outcome.next.inj h
    exact .refl
  · split at h
    · dsimp only at h
      split at h <;> obtain rfl := Host.Outcome.next.inj h
      · exact (((struck_controllerStep _ _).trans (beginReceiving_controllerStep _)).trans
          (receiveOwn_controllerStep _ _ _)).moves hkept
      · exact ((struck_controllerStep _ _).trans (awaitIdle_controllerStep _ _ _)).moves hkept
    · obtain rfl := Host.Outcome.next.inj h
      exact .refl

theorem execCleanCompletion_moves (h : execCleanCompletion s = .next t) : Moves awake s t := by
  unfold execCleanCompletion at h
  split at h <;> obtain rfl := Host.Outcome.next.inj h
  · exact .refl
  · refine Relation.ReflTransGen.trans (ControllerStep.moves ?_ fun _ => ?_) (reportCompletion_engineStep _ _).moves
    · exact (stopDriving_controllerStep _).trans (setBus_controllerStep _ _ (by rfl))
    · rfl

theorem execRestTimerExpiry_moves (h : execRestTimerExpiry s = .next t) : Moves awake s t := by
  unfold execRestTimerExpiry at h
  split at h
  · obtain rfl := Host.Outcome.next.inj h
    exact .refl
  · split at h <;> obtain rfl := Host.Outcome.next.inj h
    · exact (advanceTo_moves _ s).trans ((setBus_controllerStep _ _ (by rfl)).moves fun _ => rfl)
    · exact .refl

theorem execIntermissionPassed_moves (h : execIntermissionPassed s = .next t) : Moves awake s t := by
  unfold execIntermissionPassed at h
  split at h
  · obtain rfl := Host.Outcome.next.inj h
    exact .refl
  · dsimp only at h
    have hpassed (d : Ticks) : Moves awake s ((s.advanceTo d).setBus { s.bus with intermissionEnd := none }) :=
      (advanceTo_moves _ s).trans ((setBus_controllerStep _ _ (by rfl)).moves fun _ => rfl)
    split at h <;> obtain rfl := Host.Outcome.next.inj h
    · exact (hpassed _).trans (atIdle_moves _)
    · exact hpassed _

/-! ## The timers of the composition engine -/

theorem execQuietHoldEnd_moves (h : execQuietHoldEnd s = .next t) : Moves awake s t := by
  unfold execQuietHoldEnd at h
  split at h
  · obtain rfl := Host.Outcome.next.inj h
    exact .refl
  · split at h <;> obtain rfl := Host.Outcome.next.inj h
    · exact ((advanceTo_moves _ s).trans (enterOffer_engineStep _).moves).trans (sendWaiting_moves _)
    · exact .refl

theorem execCadenceTimer_moves (h : execCadenceTimer s = .next t) : Moves awake s t := by
  unfold execCadenceTimer at h
  split at h
  · obtain rfl := Host.Outcome.next.inj h
    exact .refl
  · split at h
    · obtain rfl := Host.Outcome.next.inj h
      exact (((advanceTo_moves _ s).trans (setComp_engineStep _ _).moves).trans
        (buildOffer_engineStep _).moves).trans (sendWaiting_moves _)
    · split at h <;> obtain rfl := Host.Outcome.next.inj h
      · exact ((advanceTo_moves _ s).trans (ownConfirm_engineStep _).moves).trans (sendWaiting_moves _)
      · exact .refl

theorem execLastEntryTimeout_moves (h : execLastEntryTimeout s = .next t) : Moves awake s t := by
  unfold execLastEntryTimeout at h
  split at h
  · obtain rfl := Host.Outcome.next.inj h
    exact .refl
  · split at h <;> obtain rfl := Host.Outcome.next.inj h
    · exact ((advanceTo_moves _ s).trans (tryPlacement_engineStep _).moves).trans (sendWaiting_moves _)
    · exact .refl

theorem execRoundDeadline_moves (h : execRoundDeadline s = .next t) : Moves awake s t := by
  unfold execRoundDeadline at h
  split at h
  · obtain rfl := Host.Outcome.next.inj h
    exact .refl
  · split at h <;> obtain rfl := Host.Outcome.next.inj h
    · exact (advanceTo_moves _ s).trans (roundFailed_engineStep _).moves
    · exact .refl

theorem retry_moves (s : State) : Moves awake s s.retry := (retry_ops s).engineStep.moves

theorem execLimpRetry_moves (h : execLimpRetry s = .next t) : Moves awake s t := by
  unfold execLimpRetry at h
  split at h
  · split at h <;> obtain rfl := Host.Outcome.next.inj h
    · exact (advanceTo_moves _ s).trans (retry_moves _)
    · exact .refl
  · split at h <;> obtain rfl := Host.Outcome.next.inj h
    · exact retry_moves s
    · exact .refl

theorem execPresenceSchedulePoint_moves (h : execPresenceSchedulePoint s = .next t) : Moves awake s t := by
  unfold execPresenceSchedulePoint at h
  split at h
  · split at h <;> obtain rfl := Host.Outcome.next.inj h
    · exact (((advanceTo_moves _ s).trans (setComp_engineStep _ _).moves).trans (handIn_engineStep _ _).moves).trans
        (sendWaiting_moves _)
    · exact .refl
  · obtain rfl := Host.Outcome.next.inj h
    exact .refl

theorem execMemberLost_moves (id : Identity) (h : execMemberLost id s = .next t) : Moves awake s t := by
  unfold execMemberLost at h
  split at h
  · obtain rfl := Host.Outcome.next.inj h
    exact .refl
  · split at h <;> obtain rfl := Host.Outcome.next.inj h
    · exact ((advanceTo_moves _ s).trans (setAside_ops _ _).engineStep.moves).trans (trigger_engineStep _ _).moves
    · exact .refl

/-! ## Grade windows and lifetimes -/

theorem execWindowEnd_moves (h : execWindowEnd s = .next t) : Moves awake s t := by
  unfold execWindowEnd at h
  split at h
  · obtain rfl := Host.Outcome.next.inj h
    exact .refl
  · dsimp only at h
    have hended (d : Ticks) : Moves awake s ((s.advanceTo d).setGrade (s.grade.endWindow d)) :=
      (advanceTo_moves d s).tail (.grade _ rfl)
    split at h <;> obtain rfl := Host.Outcome.next.inj h
    · exact hended _
    · exact ((hended _).trans (notify_cargoStep _ _).moves).trans (trigger_engineStep _ _).moves

theorem execLifetimeExpiry_moves (ticket : Nat) (h : execLifetimeExpiry ticket s = .next t) : Moves awake s t := by
  unfold execLifetimeExpiry at h
  split at h
  · obtain rfl := Host.Outcome.next.inj h
    exact .refl
  · split at h
    · obtain rfl := Host.Outcome.next.inj h
      exact .refl
    · split at h <;> obtain rfl := Host.Outcome.next.inj h
      · exact (advanceTo_moves _ s).trans (mapEntry_cargoStep _ _ _).moves
      · exact (advanceTo_moves _ s).trans (removeEntry_cargoStep _ _ _ _).moves

end Sys2Proof.Machine
end

section
/-! The decoder's transitions keep its items in agreement (R8, R12 to R20), and with them the events of the chain units
and the commands of the local port are sequences of moves. -/

namespace Sys2Proof.Machine

variable {s t : State} {awake : Prop} {k : Nat} {d : Decoder}

/-! ## Decoder transitions -/

/-- A candidate counts 1..16 (R10). -/
theorem candidateOf_codeOk {p h : Nat} {c : Candidate} (hc : candidateOf p h = some c) : codeOk c.code := by
  unfold candidateOf at hc
  split at hc
  · cases hc
  · dsimp only at hc
    split at hc
    · cases hc
    case isFalse hm =>
      obtain rfl := Option.some.inj hc
      simp only [not_or, Nat.not_lt] at hm
      exact ⟨by dsimp only; omega, by dsimp only; omega⟩

theorem fresh_ok (t : Ticks) : DecoderOk k (.fresh t) := by constructor <;> simp [Decoder.fresh]

theorem acquire_rise_ok (t : Ticks) (h : DecoderOk k d) (hk : 1 ≤ k) {c : Candidate} (hc : codeOk c.code) :
    DecoderOk k ((d.acquire c).rise t) where
  held := h.held
  cand x hx := Option.some.inj hx ▸ hc
  run := hk
  unclear := Nat.zero_le _
  faultIff := by simp [Decoder.acquire]
  heldSome := nofun
  forgotten := by simp [Decoder.acquire]
  measured m hm := by obtain rfl := Option.some.inj hm; exact ⟨rfl, nofun⟩
  high := by simp

/-- A valid period that is compared leaves the decoder in its state, or held with the code it has counted. -/
theorem compare_rise_ok (t : Ticks) (h : DecoderOk k d) (hk : 1 ≤ k) (hi : d.state ≠ .isolated) {c : Candidate}
    (hc : codeOk c.code) : DecoderOk k ((d.compare k c).rise t) := by
  have hrun : (if d.cand = some c then min k (d.run + 1) else 1) ≤ k := by split <;> omega
  unfold Decoder.compare
  dsimp only
  generalize (if d.cand = some c then min k (d.run + 1) else 1) = run at hrun ⊢
  split
  · constructor
    case held | cand => intro x hx; exact Option.some.inj hx ▸ hc
    case run => exact hrun
    case unclear => exact Nat.zero_le _
    case measured => intro m hm; obtain rfl := Option.some.inj hm; exact ⟨rfl, nofun⟩
    all_goals simp [Decoder.rise]
  · constructor
    case held => exact h.held
    case cand => intro x hx; exact Option.some.inj hx ▸ hc
    case run => exact hrun
    case unclear => exact Nat.zero_le _
    case faultIff => exact h.faultIff
    case heldSome => exact h.heldSome
    case forgotten => exact h.forgotten
    case measured => intro m hm; obtain rfl := Option.some.inj hm; exact ⟨rfl, hi⟩
    case high => simp

/-- An unclear period ends the run, and the sixteenth in a row is a FAULT. -/
theorem takeUnclear_cases (h : DecoderOk k d) (hi : d.state ≠ .isolated) : ∃ n ≤ 16,
    d.takeUnclear = { d with run := 0, cand := none, unclear := n } ∨
    d.takeUnclear = { d with state := .fault, held := none, fault := some .unclear, run := 0, cand := none,
                             unclear := n } := by
  refine ⟨min 16 (d.unclear + 1), by omega, ?_⟩
  unfold Decoder.takeUnclear
  dsimp only
  split
  case h_5 hs =>
    split
    · exact .inr (by rw [hs, h.forgotten (.inr (.inl hs))])
    · exact .inl rfl
  case h_6 hs => exact absurd hs hi
  all_goals
    split
    · exact .inr rfl
    · exact .inl rfl

theorem takeUnclear_rise_ok (t : Ticks) (h : DecoderOk k d) (hi : d.state ≠ .isolated) :
    DecoderOk k (d.takeUnclear.rise t) := by
  obtain ⟨n, hn, he | he⟩ := takeUnclear_cases h hi <;> rw [he]
  · constructor
    case held => exact h.held
    case faultIff => exact h.faultIff
    case heldSome => exact h.heldSome
    case forgotten => exact h.forgotten
    case measured => intro m hm; obtain rfl := Option.some.inj hm; exact ⟨rfl, hi⟩
    all_goals simp [Decoder.rise, hn]
  · constructor
    case measured => intro m hm; obtain rfl := Option.some.inj hm; exact ⟨rfl, nofun⟩
    all_goals simp [Decoder.rise, hn]

theorem judge_rise_ok (p h : Nat) (t : Ticks) (hd : DecoderOk k d) (hk : 1 ≤ k) (hi : d.state ≠ .isolated) :
    DecoderOk k ((d.judge k p h).rise t) := by
  unfold Decoder.judge
  cases hc : candidateOf p h with
  | none => exact takeUnclear_rise_ok t hd hi
  | some c =>
    have hcode := candidateOf_codeOk hc
    show DecoderOk k ((d.takeValid k c).rise t)
    unfold Decoder.takeValid
    split
    · exact acquire_rise_ok t hd hk hcode
    · exact acquire_rise_ok t hd hk hcode
    · exact compare_rise_ok t hd hk hi hcode
    · exact compare_rise_ok t hd hk hi hcode
    · split
      · exact acquire_rise_ok t hd hk hcode
      · exact compare_rise_ok t hd hk hi hcode
    · contradiction

theorem takePeriod_ok {p h : Nat} {t : Ticks} (hp : p ≤ t) (hd : DecoderOk k d) (hk : 1 ≤ k)
    (hi : d.state ≠ .isolated) : DecoderOk k (d.takePeriod k p h t) := by
  rw [Decoder.takePeriod_eq k p h t d hi hp]
  exact judge_rise_ok p h t hd hk hi

theorem lose_ok (t : Ticks) (h : DecoderOk k d) : DecoderOk k (d.lose t) := by
  unfold Decoder.lose
  split
  · exact h
  · exact fresh_ok t

theorem part_ok (t : Ticks) (h : DecoderOk k d) : DecoderOk k (d.part t) := by
  unfold Decoder.part
  split
  · exact h
  · constructor <;> simp
    exact h.held

theorem stick_ok (t : Ticks) (h : DecoderOk k d) : DecoderOk k (d.stick t) := by
  unfold Decoder.stick
  split
  · constructor <;> simp
  · exact h

theorem isolate_ok (t : Ticks) (h : DecoderOk k d) : DecoderOk k (d.isolate t) := by
  unfold Decoder.isolate
  split
  · exact h
  · constructor <;> simp [Decoder.fresh]

theorem unisolate_ok (t : Ticks) (h : DecoderOk k d) : DecoderOk k (d.unisolate t) := by
  unfold Decoder.unisolate
  split
  · exact fresh_ok t
  · exact h

/-! ## The events of the chain units -/

theorem senses_iff {e : End} : s.senses e = true ↔ s.started = true ∧ (s.chain e).dec.state ≠ .isolated := by
  simp [State.senses]

theorem decoderEvent_moves (e : End) (f : Decoder → Decoder) (d : Ticks) (hs : s.started = true)
    (hf : 1 ≤ s.k → DecoderOk s.k (s.chain e).dec → DecoderOk s.k (f (s.chain e).dec)) :
    Moves awake s ((s.advanceTo d).decoderEvent e f) := by
  have hs' : (s.advanceTo d).started = true := hs
  refine (advanceTo_moves d s).tail ?_
  rw [State.decoderEvent, if_pos hs']
  exact .unit e _ (fun hk hd => hf hk hd) rfl fun hn => absurd hn (by simp [hs'])

theorem execPeriodBoundary_moves (e : End) (h : execPeriodBoundary e s = .next t) : Moves awake s t := by
  unfold execPeriodBoundary at h
  dsimp only at h
  split at h <;> obtain rfl := Host.Outcome.next.inj h
  · exact .refl
  case h_2 d hd =>
    exact (advanceTo_moves _ s).tail (.boundary (s := s.advanceTo _) e _ (by simp [hd]))

theorem execCompletedPeriod_moves (e : End) (p m : Nat) (h : execCompletedPeriod e p m s = .next t) :
    Moves awake s t := by
  unfold execCompletedPeriod at h
  split at h <;> obtain rfl := Host.Outcome.next.inj h
  case isTrue hs =>
    obtain ⟨hstarted, hi⟩ := senses_iff.mp hs.1
    exact decoderEvent_moves e _ _ hstarted fun hk hd => takePeriod_ok (by simp) hd hk hi
  case isFalse => exact .refl

theorem execLoss_moves (e : End) (h : execLoss e s = .next t) : Moves awake s t := by
  unfold execLoss at h
  split at h <;> obtain rfl := Host.Outcome.next.inj h
  case isTrue hs => exact decoderEvent_moves e _ _ (senses_iff.mp hs).1 fun _ => lose_ok _
  case isFalse => exact .refl

theorem execPartingSensed_moves (e : End) (h : execPartingSensed e s = .next t) : Moves awake s t := by
  unfold execPartingSensed at h
  split at h <;> obtain rfl := Host.Outcome.next.inj h
  case isTrue hs => exact decoderEvent_moves e _ _ (senses_iff.mp hs).1 fun _ => part_ok _
  case isFalse => exact .refl

theorem execStuckHigh_moves (e : End) (h : execStuckHigh e s = .next t) : Moves awake s t := by
  unfold execStuckHigh at h
  split at h
  · obtain rfl := Host.Outcome.next.inj h
    exact .refl
  · split at h <;> obtain rfl := Host.Outcome.next.inj h
    case isTrue hs => exact decoderEvent_moves e _ _ hs.1 fun _ => stick_ok _
    case isFalse => exact .refl

theorem release_moves (e : End) (b : Bool) (s : State) :
    Moves awake s (s.changeUnit e fun u => { u with release := b }) :=
  .single (.unit e _ (fun _ hd => hd) rfl fun _ => rfl)

theorem isolate_moves (e : End) (on : Bool) (hs : s.started = true) : Moves awake s (s.isolate e on) := by
  refine .single (.unit e _ (fun _ hd => ?_) rfl fun hn => absurd hn (by simp [hs]))
  cases on
  · exact unisolate_ok _ hd
  · exact isolate_ok _ hd

/-! ## The local port -/

theorem csnFalls_moves (s : State) : Moves awake s s.csnFalls := by
  obtain h | ⟨p, hp, h⟩ := csnFalls_cases s <;> rw [h]
  exact transacts_moves hp

theorem clockOut_moves (n : Nat) (data : List Byte) (s : State) : Moves awake s (s.clockOut n data) :=
  transacts_moves rfl

theorem transfer_moves (x : Transfer) {run : List Bool → State → State} (h : ∀ bits, Moves awake s (run bits s)) :
    Moves awake s (s.transfer x run) := by
  unfold State.transfer
  split
  · exact csnFalls_moves s
  · split
    · exact h _
    · exact .refl
  · split
    · exact clockOut_moves _ _ s
    · exact .refl

theorem takeCommand_moves (x : Transfer) {run : List Byte → State → State × List Byte}
    (h : ∀ p u, Moves awake u (run p u).1) : Moves awake s (s.takeCommand x run) :=
  takeCommand_keeps (P := Moves awake s) x (fun _ _ hp hu => hu.trans (transacts_moves hp))
    (fun p u hu => hu.trans (h p u)) .refl

theorem setCab_moves (x : CabSetting) (s : State) : Moves awake s (s.setCab x) := by
  unfold State.setCab
  split
  · exact .refl
  · exact .head (.port { s.port with cab := x } rfl rfl rfl rfl) (trigger_engineStep _ _).moves

theorem setCabCommand_moves (p : List Byte) (s : State) : Moves awake s (s.setCabCommand p).1 := by
  unfold State.setCabCommand
  split
  · split
    · split
      · split
        · exact setCab_moves _ s
        · exact .refl
      · exact .refl
    · exact .refl
  · exact .refl

theorem isolateCommand_moves (p : List Byte) (s : State) : Moves awake s (s.isolateCommand p).1 := by
  unfold State.isolateCommand
  split
  case isTrue hs =>
    split
    · split
      · exact .refl
      · split
        · exact isolate_moves _ _ hs
        · split
          · exact isolate_moves _ _ hs
          · exact .refl
    · exact .refl
  case isFalse => exact .refl

theorem recomposeCommand_moves (p : List Byte) (s : State) : Moves awake s (s.recomposeCommand p).1 := by
  unfold State.recomposeCommand
  split
  · exact (trigger_engineStep _ s).moves
  · exact .refl

/-- Every command and event but CONFIGURE, START, RESTART, READ EVENTS and a hardware reset is a sequence of moves. -/
theorem exec_moves {c : Instr} (hc : Ordinary c) (hstart : ∀ x, c ≠ .start x) (hread : ∀ x, c ≠ .readEvents x)
    (hm : awake → Modes s) (h : exec c s = .next t) : Moves awake s t := by
  cases c with
  | configure x => exact hc.elim
  | restart x => exact hc.elim
  | hardwareReset edge => exact hc.elim
  | start x => exact absurd rfl (hstart x)
  | readEvents x => exact absurd rfl (hread x)
  | setCab x => exact Host.Outcome.next.inj h ▸ takeCommand_moves x setCabCommand_moves
  | isolate x => exact Host.Outcome.next.inj h ▸ takeCommand_moves x isolateCommand_moves
  | recompose x => exact Host.Outcome.next.inj h ▸ takeCommand_moves x recomposeCommand_moves
  | submit x => exact Host.Outcome.next.inj h ▸ takeCommand_moves x fun p u => (submitCommand_cargoStep p u).moves
  | withdraw x =>
    exact Host.Outcome.next.inj h ▸ takeCommand_moves x fun p u => (withdrawCommand_cargoStep p u).moves
  | take x => exact Host.Outcome.next.inj h ▸ takeCommand_moves x fun p u => (takeArrival_cargoStep p u).moves
  | readOutcomes x =>
    exact Host.Outcome.next.inj h ▸ takeCommand_moves x fun p u => (readOutcomesCommand_cargoStep p u).moves
  | readRoster x =>
    exact Host.Outcome.next.inj h ▸ takeCommand_moves x fun p u => (readRosterCommand_cargoStep p u).moves
  | readState x => exact Host.Outcome.next.inj h ▸ takeCommand_moves x fun _ _ => .refl
  | readAnswer x => exact Host.Outcome.next.inj h ▸ transfer_moves x fun _ => clockOut_moves _ _ s
  | commandOverrun x =>
    refine Host.Outcome.next.inj h ▸ transfer_moves x fun bits => ?_
    split
    · exact (clockOut_moves _ _ s).trans (transacts_moves rfl)
    · exact .refl
  | answerReady =>
    obtain rfl := Host.Outcome.next.inj h
    split
    · exact transacts_moves rfl
    · exact .refl
  | periodBoundary e => exact execPeriodBoundary_moves e h
  | completedPeriod e p k => exact execCompletedPeriod_moves e p k h
  | loss e => exact execLoss_moves e h
  | partingSensed e => exact execPartingSensed_moves e h
  | stuckHigh e => exact execStuckHigh_moves e h
  | releaseAsserted e => exact Host.Outcome.next.inj h ▸ release_moves e true s
  | releaseDeasserted e => exact Host.Outcome.next.inj h ▸ release_moves e false s
  | busIdle => exact execBusIdle_moves hm h
  | startBitSeen => exact execStartBitSeen_moves h
  | frameReceived bits => exact execFrameReceived_moves bits hm h
  | lostArbitration bit => exact execLostArbitration_moves bit hm h
  | dominantReadRecessive bit => exact execDominantReadRecessive_moves bit h
  | strike bit => exact execStrike_moves bit hm h
  | cleanCompletion => exact execCleanCompletion_moves h
  | restTimerExpiry => exact execRestTimerExpiry_moves h
  | intermissionPassed => exact execIntermissionPassed_moves h
  | quietHoldEnd => exact execQuietHoldEnd_moves h
  | cadenceTimer => exact execCadenceTimer_moves h
  | lastEntryTimeout => exact execLastEntryTimeout_moves h
  | roundDeadline => exact execRoundDeadline_moves h
  | limpRetry => exact execLimpRetry_moves h
  | presenceSchedulePoint => exact execPresenceSchedulePoint_moves h
  | memberLost id => exact execMemberLost_moves id h
  | windowEnd => exact execWindowEnd_moves h
  | lifetimeExpiry ticket => exact execLifetimeExpiry_moves ticket h

end Sys2Proof.Machine
end

section
/-! The chain units through every step (R4 to R6, R8, R12 to R20, R22). -/

namespace Sys2Proof.Machine

variable {s t : State} {awake : Prop}

/-! ## A chain unit and what it follows -/

/-- The pending code and the saturated mark of an end follow a count (R4). -/
def Drive.Follows (d : Drive) (count : Nat) : Prop :=
  d.pending = min 16 (1 + count) ∧ d.saturated = decide (count = 16)

/-- A chain unit by itself, of a part that has started or not, with some confirmation count. -/
structure UnitOk (started : Bool) (k : Nat) (u : ChainUnit) (hold : Option Bool) : Prop where
  dec     : DecoderOk k u.dec
  pending : codeOk u.drv.pending
  loaded  : codeOk u.drv.loaded
  period  : u.drv.periodFrom.isSome = hold.isNone
  rest    : started = false → u.dec.state = .openLine ∧ u.dec.run = 0

theorem chainOk_iff (e : End) : ChainOk s e ↔
    UnitOk s.started s.k (s.chain e) (s.driveHold e) ∧ (s.chain e).drv.Follows (s.report e.other).count := by
  have hrest : s.port.part = .unconfigured ↔ s.started = false := by simp [State.started]
  exact ⟨fun ⟨h1, h2, h3, h4, h5, h6, h7⟩ => ⟨⟨h1, h2, h3, h4, fun h => h7 (hrest.mpr h)⟩, h5, h6⟩,
    fun ⟨⟨h1, h2, h3, h4, h7⟩, h5, h6⟩ => ⟨h1, h2, h3, h4, h5, h6, fun h => h7 (hrest.mp h)⟩⟩

/-- The chain units depend on decoders, drive generators, release inputs, the image and the part's having started. -/
theorem Chains.congr (h : Chains s) (hchain : ∀ e, t.chain e = s.chain e) (hk : t.k = s.k)
    (hs : t.started = s.started) : Chains t := by
  intro e
  have he := (chainOk_iff e).mp (h e)
  rw [chainOk_iff]
  simpa only [State.driveHold, State.report, hchain, hk, hs] using he

theorem k_congr (h : t.port.image = s.port.image) : t.k = s.k := by simp only [State.k, h]

theorem ImageOk.congr (h : ImageOk s) (himage : t.port.image = s.port.image) : ImageOk t := by
  unfold ImageOk
  rw [himage]
  exact h

theorem ImageOk.one_le_k (h : ImageOk s) : 1 ≤ s.k := by
  unfold State.k
  split
  case h_1 i hi =>
    have := (h i hi).2.2.1
    omega
  case h_2 => decide

/-! ## Reports and drive conditions -/

/-- No end reports a count above 16. -/
theorem report_count_le {started : Bool} {u : ChainUnit} {k : Nat} (h : DecoderOk k u.dec) :
    (reportOf started u).count ≤ 16 := by
  unfold reportOf
  split_ifs
  · exact Nat.zero_le _
  · exact Nat.zero_le _
  · exact Nat.zero_le _
  · split
    · exact (h.held _ ‹_›).2
    · exact (h.held _ ‹_›).2
    all_goals exact Nat.zero_le _

theorem follow_follows {count : Nat} (d : Drive) (h : count ≤ 16) : (d.follow count).Follows count := by
  refine ⟨by simp [Drive.follow, Nat.add_comm], ?_⟩
  simp only [Drive.follow]
  congr 1
  exact propext ⟨fun _ => by omega, fun _ => by omega⟩

theorem min_codeOk (count : Nat) : codeOk (min 16 (count + 1)) := ⟨by omega, by omega⟩

/-- The drive generator of an end apart, an end reports the same and is driven by the same condition. -/
theorem report_congr (e : End) (hs : t.started = s.started) (hdec : (t.chain e).dec = (s.chain e).dec)
    (hrelease : (t.chain e).release = (s.chain e).release) : t.report e = s.report e := by
  simp only [State.report, reportOf, hs, hdec, hrelease]

theorem driveHold_congr (e : End) (hs : t.started = s.started) (hdec : (t.chain e).dec = (s.chain e).dec)
    (hrelease : (t.chain e).release = (s.chain e).release) : t.driveHold e = s.driveHold e := by
  simp only [State.driveHold, hs, hdec, hrelease]

@[simp] theorem setChain_started (e : End) (u : ChainUnit) (s : State) : (s.setChain e u).started = s.started := by
  cases e <;> rfl

@[simp] theorem setChain_k (e : End) (u : ChainUnit) (s : State) : (s.setChain e u).k = s.k := by
  cases e <;> rfl

@[simp] theorem syncDrive_started (e : End) (s : State) : (s.syncDrive e).started = s.started :=
  started_congr (by rw [syncDrive_port])

@[simp] theorem syncDrive_k (e : End) (s : State) : (s.syncDrive e).k = s.k := k_congr (by rw [syncDrive_port])

theorem setChain_chain_ne {e e' : End} (h : e' ≠ e) (u : ChainUnit) (s : State) :
    (s.setChain e u).chain e' = s.chain e' := by
  cases e <;> cases e' <;> first | rfl | exact absurd rfl h

theorem syncDrive_chain_ne {e e' : End} (h : e' ≠ e) (s : State) : (s.syncDrive e).chain e' = s.chain e' := by
  obtain he | ⟨drv, he⟩ := syncDrive_cases e s <;> rw [he]
  exact setChain_chain_ne h _ s

/-- The drive conditions leave decoder, release input, pending code and mark, and the period count runs exactly where
none holds. -/
theorem syncDrive_chain (e : End) (s : State) : ∃ loaded periodFrom,
    (s.syncDrive e).chain e = { s.chain e with drv := { (s.chain e).drv with
      loaded := loaded, periodFrom := periodFrom } } ∧
    (loaded = (s.chain e).drv.loaded ∨ loaded = (s.chain e).drv.pending) ∧
    periodFrom.isSome = (s.driveHold e).isNone := by
  unfold State.syncDrive
  dsimp only
  split
  case h_1 _ _ _ hh => exact ⟨_, none, State.chain_setChain_same _ _ _, .inl rfl, by simp [hh]⟩
  case h_2 _ _ hh _ => exact ⟨_, some s.now, State.chain_setChain_same _ _ _, .inr rfl, by simp [hh]⟩
  case h_3 _ _ _ hh hp => exact ⟨_, (s.chain e).drv.periodFrom, rfl, .inl rfl, by simp [hh, hp]⟩

/-- An end whose drive generator is sound but for its period count is sound after the drive conditions. -/
theorem syncDrive_unitOk {e : End} (hdec : DecoderOk s.k (s.chain e).dec) (hpending : codeOk (s.chain e).drv.pending)
    (hloaded : codeOk (s.chain e).drv.loaded)
    (hrest : s.started = false → (s.chain e).dec.state = .openLine ∧ (s.chain e).dec.run = 0) :
    UnitOk (s.syncDrive e).started (s.syncDrive e).k ((s.syncDrive e).chain e) ((s.syncDrive e).driveHold e) := by
  obtain ⟨loaded, period, hchain, hl, hp⟩ := syncDrive_chain e s
  have hhold : (s.syncDrive e).driveHold e = s.driveHold e :=
    driveHold_congr e (syncDrive_started e s) (by rw [hchain]) (by rw [hchain])
  rw [hhold, hchain, syncDrive_started, syncDrive_k]
  refine ⟨hdec, hpending, ?_, hp, hrest⟩
  obtain rfl | rfl := hl
  · exact hloaded
  · exact hpending

theorem EngineStep.chain (h : EngineStep s t) (e : End) : t.chain e = s.chain e := by
  cases e
  · exact h.chainA
  · exact h.chainB

theorem ControllerStep.chain (h : ControllerStep s t) (e : End) : t.chain e = s.chain e := by
  cases e
  · exact h.chainA
  · exact h.chainB

theorem EngineStep.chains (h : EngineStep s t) (hc : Chains s) : Chains t :=
  hc.congr h.chain (k_congr h.image) (started_congr (Port.gains_part h.port))

/-! ## Chain changes -/

/-- After a chain change both units are sound and follow each other, where they were sound, the changed end followed the
other, and the other followed it unless its report has changed. -/
theorem chainChanged_chains (e : End) (before : Triple)
    (hunit : ∀ e', UnitOk s.started s.k (s.chain e') (s.driveHold e'))
    (hown : (s.chain e).drv.Follows (s.report e.other).count)
    (hother : s.report e = before → (s.chain e.other).drv.Follows (s.report e).count) :
    Chains (s.chainChanged e before) := by
  unfold State.chainChanged
  dsimp only
  have hends (e' : End) : e' = e ∨ e' = e.other := by cases e <;> cases e' <;> simp [End.other]
  split
  case isTrue hr =>
    intro e'
    rw [chainOk_iff]
    refine ⟨hunit e', ?_⟩
    obtain rfl | rfl := hends e'
    · exact hown
    · simpa using hother hr
  case isFalse =>
    refine (trigger_engineStep _ _).chains ((notifyIf_cargoStep _ _ _).engine.chains
      ((notify_cargoStep _ _).engine.chains fun e' => ?_))
    rw [chainOk_iff]
    obtain ⟨u, hu⟩ : ∃ u, u = { s.chain e.other with drv := (s.chain e.other).drv.follow (s.report e).count } :=
      ⟨_, rfl⟩
    rw [← hu]
    have hown_chain : (s.setChain e.other u).chain e = s.chain e := setChain_chain_ne (by simp) _ s
    have hother_chain : (s.setChain e.other u).chain e.other = u := State.chain_setChain_same _ _ _
    have hdec (x : End) : ((s.setChain e.other u).chain x).dec = (s.chain x).dec := by
      obtain rfl | rfl := hends x
      · rw [hown_chain]
      · rw [hother_chain, hu]
    have hrelease (x : End) : ((s.setChain e.other u).chain x).release = (s.chain x).release := by
      obtain rfl | rfl := hends x
      · rw [hown_chain]
      · rw [hother_chain, hu]
    have hreport (x : End) := report_congr (t := s.setChain e.other u) x (setChain_started _ _ s) (hdec x) (hrelease x)
    have hhold (x : End) := driveHold_congr (t := s.setChain e.other u) x (setChain_started _ _ s) (hdec x) (hrelease x)
    rw [hreport, hhold, setChain_started, setChain_k]
    obtain rfl | rfl := hends e'
    · rw [hown_chain]
      exact ⟨hunit _, hown⟩
    · rw [hother_chain, hu, End.other_other]
      obtain ⟨h1, h2, h3, h4, h5⟩ := hunit e.other
      exact ⟨⟨h1, min_codeOk _, h3, h4, h5⟩, follow_follows _ (report_count_le (hunit e).dec)⟩

/-- A changed chain unit keeps both units sound where its decoder stays sound and its drive generator is left to the
drive conditions. -/
theorem changeUnit_chains (e : End) (f : ChainUnit → ChainUnit) (h : Chains s)
    (hdec : DecoderOk s.k (f (s.chain e)).dec) (hdrv : (f (s.chain e)).drv = (s.chain e).drv)
    (hrest : s.started = false → (f (s.chain e)).dec = (s.chain e).dec) : Chains (s.changeUnit e f) := by
  obtain ⟨u, hu⟩ : ∃ u, u = f (s.chain e) := ⟨_, rfl⟩
  have hown := (chainOk_iff e).mp (h e)
  have hother := (chainOk_iff e.other).mp (h e.other)
  rw [End.other_other] at hother
  unfold State.changeUnit
  dsimp only
  rw [← hu] at hdec hdrv hrest ⊢
  set v := (s.setChain e u).syncDrive e with hv
  have hv_other : v.chain e.other = s.chain e.other := by
    rw [hv, syncDrive_chain_ne (by simp), setChain_chain_ne (by simp)]
  obtain ⟨loaded, period, hv_chain, -, -⟩ := syncDrive_chain e (s.setChain e u)
  rw [← hv, State.chain_setChain_same] at hv_chain
  have hv_started : v.started = s.started := by simp [hv]
  have hv_k : v.k = s.k := by simp [hv]
  have hv_report := report_congr (t := v) e.other hv_started (by rw [hv_other]) (by rw [hv_other])
  have hv_hold := driveHold_congr (t := v) e.other hv_started (by rw [hv_other]) (by rw [hv_other])
  have hnotify := (notifyIf_cargoStep (u.dec.state = .fault && (s.chain e).dec.state ≠ .fault) .fault v).engine
  set w := v.notifyIf (u.dec.state = .fault && (s.chain e).dec.state ≠ .fault) .fault with hw
  have hw_started : w.started = v.started := started_congr (Port.gains_part hnotify.port)
  have hw_report (x : End) := report_congr (t := w) x hw_started (by rw [hnotify.chain]) (by rw [hnotify.chain])
  have hw_hold (x : End) := driveHold_congr (t := w) x hw_started (by rw [hnotify.chain]) (by rw [hnotify.chain])
  refine chainChanged_chains e _ (fun e' => ?_) ?_ fun hr => ?_
  · rw [hw_started, k_congr hnotify.image, hnotify.chain, hw_hold]
    have hends : e' = e ∨ e' = e.other := by cases e <;> cases e' <;> simp [End.other]
    obtain rfl | rfl := hends
    · refine syncDrive_unitOk ?_ ?_ ?_ ?_ <;> simp only [State.chain_setChain_same, setChain_k, setChain_started]
      · exact hdec
      · rw [hdrv]; exact hown.1.pending
      · rw [hdrv]; exact hown.1.loaded
      · intro hs
        rw [hrest hs]
        exact hown.1.rest hs
    · rw [hv_other, hv_hold, hv_started, hv_k]
      exact hother.1
  · rw [hnotify.chain, hw_report, hv_report, hv_chain]
    show u.drv.Follows _
    rw [hdrv]
    exact hown.2
  · rw [hr, hnotify.chain, hv_other]
    exact hother.2

/-! ## Moves -/

theorem boundary_chains (e : End) (d : Ticks) (h : Chains s) (hp : (s.chain e).drv.periodFrom.isSome) :
    Chains (s.setChain e { s.chain e with
      drv := { (s.chain e).drv with loaded := (s.chain e).drv.pending, periodFrom := some d } }) := by
  obtain ⟨u, hu⟩ : ∃ u, u = { s.chain e with
      drv := { (s.chain e).drv with loaded := (s.chain e).drv.pending, periodFrom := some d } } := ⟨_, rfl⟩
  rw [← hu]
  have hchain (x : End) : (s.setChain e u).chain x = if x = e then u else s.chain x := by
    split
    case isTrue hx => rw [hx, State.chain_setChain_same]
    case isFalse hx => exact setChain_chain_ne hx u s
  have hdec (x : End) : ((s.setChain e u).chain x).dec = (s.chain x).dec := by
    rw [hchain]; split
    case isTrue hx => rw [hu, hx]
    case isFalse => rfl
  have hrelease (x : End) : ((s.setChain e u).chain x).release = (s.chain x).release := by
    rw [hchain]; split
    case isTrue hx => rw [hu, hx]
    case isFalse => rfl
  intro x
  have hx := (chainOk_iff x).mp (h x)
  rw [chainOk_iff, report_congr x.other (setChain_started _ _ s) (hdec _) (hrelease _),
    driveHold_congr x (setChain_started _ _ s) (hdec _) (hrelease _), setChain_started, setChain_k, hchain]
  split
  case isTrue he =>
    obtain rfl := he
    rw [hu]
    obtain ⟨⟨h1, h2, h3, h4, h5⟩, h6⟩ := hx
    exact ⟨⟨h1, h2, h2, h4 ▸ hp.symm ▸ rfl, h5⟩, h6⟩
  case isFalse => exact hx

theorem Move.image (h : Move awake s t) : t.port.image = s.port.image := by
  cases h with
  | controller h => rw [h.port]
  | clock | grade => rfl
  | port p _ himage => exact himage
  | unit e f => rw [(changeUnit_gains e f s).1]
  | boundary e => cases e <;> rfl

theorem Move.chains (hm : Move True s t) (h : Chains s) (hi : ImageOk s) : Chains t := by
  cases hm with
  | controller hstep hs => exact h.congr hstep.chain (k_congr (by rw [hstep.port])) (hs trivial)
  | clock | grade => exact h.congr (fun e => by cases e <;> rfl) rfl rfl
  | port p hpart himage => exact h.congr (fun e => by cases e <;> rfl) (k_congr himage) (started_congr hpart)
  | unit e f hdec hdrv hrest => exact changeUnit_chains e f h (hdec hi.one_le_k (h e).dec) hdrv hrest
  | boundary e d hp => exact boundary_chains e d h hp

theorem Moves.chains (hm : Moves True s t) (h : Chains s) (hi : ImageOk s) : Chains t ∧ ImageOk t := by
  induction hm with
  | refl => exact ⟨h, hi⟩
  | tail _ hmove ih => exact ⟨hmove.chains ih.1 ih.2, ih.2.congr hmove.image⟩

/-! ## START, CONFIGURE and hardware resets -/

/-- The units of a part that has just started, whose codes are 1, are sound and follow each other. -/
theorem releasedAtStart_chains (e : End) (h : Chains s) : Chains (s.releasedAtStart e) := by
  unfold State.releasedAtStart
  split
  · refine chainChanged_chains e _ (fun e' => ((chainOk_iff e').mp (h e')).1) ((chainOk_iff e).mp (h e)).2 fun _ => ?_
    have hother := ((chainOk_iff e.other).mp (h e.other)).2
    rwa [End.other_other] at hother
  · exact h

/-- A fresh decoder reports no count. -/
theorem report_count_of_open {started : Bool} {u : ChainUnit} (h : u.dec.state = .openLine) :
    (reportOf started u).count = 0 := by
  unfold reportOf
  split_ifs
  · rfl
  · rfl
  · rfl
  · rw [h]

/-- What START makes of the chain units before the START trigger. -/
def State.unitsBegun (s : State) : State :=
  ((((s.setPort { s.port with part := .running, cab := .inactive }).setChain .a (s.chainA.begin s.now)).setChain .b
    (s.chainB.begin s.now)).syncDrive .a).syncDrive .b

theorem begin_eq (s : State) : s.begin = ((((s.unitsBegun.setBus (s.unitsBegun.bus.listen s.unitsBegun.now)).setGrade
    (s.grade.begin s.now)).trigger .start).releasedAtStart .a).releasedAtStart .b := by
  simp [State.begin, State.unitsBegun]

theorem unitsBegun_port (s : State) : s.unitsBegun.port = { s.port with part := .running, cab := .inactive } := by
  simp [State.unitsBegun]

theorem unitsBegun_started (s : State) : s.unitsBegun.started = true := by
  rw [started_iff, unitsBegun_port]
  nofun

/-- Before the drive conditions both units are fresh, and after them they differ in the period count alone. -/
theorem unitsBegun_chain (e : End) (s : State) : (s.unitsBegun.chain e).dec = .fresh s.now ∧
    (s.unitsBegun.chain e).drv.pending = 1 ∧ (s.unitsBegun.chain e).drv.loaded = 1 ∧
    (s.unitsBegun.chain e).drv.saturated = false ∧
    (s.unitsBegun.chain e).drv.periodFrom.isSome = (s.unitsBegun.driveHold e).isNone := by
  obtain ⟨u, hu⟩ : ∃ u, u = ((s.setPort { s.port with part := .running, cab := .inactive }).setChain .a
    (s.chainA.begin s.now)).setChain .b (s.chainB.begin s.now) := ⟨_, rfl⟩
  have hdef : s.unitsBegun = (u.syncDrive .a).syncDrive .b := by rw [hu]; rfl
  have hfresh (x : End) : (u.chain x).dec = .fresh s.now ∧ (u.chain x).drv = .fresh := by
    rw [hu]; cases x <;> exact ⟨rfl, rfl⟩
  obtain ⟨la, pa, ha, hla, hpa⟩ := syncDrive_chain .a u
  obtain ⟨lb, pb, hb, hlb, hpb⟩ := syncDrive_chain .b (u.syncDrive .a)
  have hb_before : (u.syncDrive .a).chain .b = u.chain .b := syncDrive_chain_ne (by decide) u
  have ha_after : ((u.syncDrive .a).syncDrive .b).chain .a = (u.syncDrive .a).chain .a :=
    syncDrive_chain_ne (by decide) _
  rw [hb_before] at hb hlb
  have hstarted : ((u.syncDrive .a).syncDrive .b).started = u.started := by simp
  rw [hdef]
  cases e
  · rw [driveHold_congr (s := u) .a hstarted (by rw [ha_after, ha]) (by rw [ha_after, ha]), ha_after, ha]
    obtain ⟨hdec, hdrv⟩ := hfresh .a
    rw [hdrv] at hla ⊢
    exact ⟨hdec, rfl, hla.elim id id, rfl, hpa⟩
  · rw [driveHold_congr (s := u.syncDrive .a) .b (by simp) (by rw [hb, hb_before]) (by rw [hb, hb_before]), hb]
    obtain ⟨hdec, hdrv⟩ := hfresh .b
    rw [hdrv] at hlb ⊢
    exact ⟨hdec, rfl, hlb.elim id id, rfl, hpb⟩

theorem unitsBegun_chains (s : State) : Chains s.unitsBegun := by
  intro e
  obtain ⟨hdec, hpending, hloaded, hsaturated, hperiod⟩ := unitsBegun_chain e s
  have hother : (s.unitsBegun.report e.other).count = 0 :=
    report_count_of_open (by rw [(unitsBegun_chain e.other s).1]; rfl)
  rw [chainOk_iff]
  refine ⟨⟨hdec ▸ fresh_ok _, ?_, ?_, hperiod, fun hs => ?_⟩, ?_⟩
  · rw [hpending]; exact ⟨Nat.le_refl 1, by decide⟩
  · rw [hloaded]; exact ⟨Nat.le_refl 1, by decide⟩
  · rw [unitsBegun_started] at hs; cases hs
  · rw [hother]
    exact ⟨hpending, hsaturated⟩

theorem begin_chains (s : State) : Chains s.begin := by
  rw [begin_eq]
  exact releasedAtStart_chains _ (releasedAtStart_chains _ ((trigger_engineStep _ _).chains
    ((unitsBegun_chains s).congr (fun e => by cases e <;> rfl) rfl rfl)))

theorem begin_image (s : State) : s.begin.port.image = s.port.image := by
  rw [begin_eq, (releasedAtStart_gains _ _).1, (releasedAtStart_gains _ _).1, (trigger_engineStep _ _).port.1]
  simp [unitsBegun_port]

/-- A port command that keeps chain units and image sound keeps them so where it is taken. -/
theorem takeCommand_chains (x : Transfer) {run : List Byte → State → State × List Byte}
    (hrun : ∀ p u, Chains u ∧ ImageOk u → Chains (run p u).1 ∧ ImageOk (run p u).1) (h : Chains s ∧ ImageOk s) :
    Chains (s.takeCommand x run) ∧ ImageOk (s.takeCommand x run) := by
  refine takeCommand_keeps (P := fun u => Chains u ∧ ImageOk u) x (fun u p hp hu => ?_) hrun h
  have himage : p.image = u.port.image := by rw [hp]
  have hpart : p.part = u.port.part := by rw [hp]
  exact ⟨hu.1.congr (fun e => by cases e <;> rfl) (k_congr himage) (started_congr hpart), hu.2.congr himage⟩

theorem startCommand_chains (p : List Byte) (h : Chains s ∧ ImageOk s) :
    Chains (s.startCommand p).1 ∧ ImageOk (s.startCommand p).1 := by
  unfold State.startCommand
  split
  · exact h
  · split
    · exact h
    · exact ⟨begin_chains s, h.2.congr (begin_image s)⟩

/-- Before START a unit is sound whatever the confirmation count. -/
theorem setImage_chains (i : Image) (mask : BitVec 15) (hs : s.started = false) (h : Chains s) :
    Chains (s.setImage i mask) := by
  intro e
  obtain ⟨⟨hdec, h2, h3, h4, h5⟩, h6⟩ := (chainOk_iff e).mp (h e)
  obtain ⟨g1, g2, g3, g4, g5, g6, g7, g8, g9⟩ := hdec
  have hrun := (h5 hs).2
  exact (chainOk_iff e).mpr ⟨⟨⟨g1, g2, hrun ▸ Nat.zero_le _, g4, g5, g6, g7, g8, g9⟩, h2, h3, h4, h5⟩, h6⟩

theorem configure_chains (p : List Byte) (h : Chains s ∧ ImageOk s) :
    Chains (s.configure p).1 ∧ ImageOk (s.configure p).1 := by
  obtain hc | ⟨hs, i, mask, hc, hid, hg, hk⟩ := configure_cases p s <;> rw [hc]
  · exact h
  · refine ⟨setImage_chains i mask hs h.1, fun j hj => ?_⟩
    obtain rfl := Option.some.inj hj
    exact ⟨hid, hg, hk⟩

theorem restart_chain (s : State) (e : End) : s.restart.chain e = s.chain e := by
  simp only [State.restart, State.raiseEpoch, State.setPort_chain]
  rw [changeEpoch_rest]
  cases e <;> rfl

theorem restart_image (s : State) : s.restart.port.image = s.port.image := rfl

theorem restartCommand_chains (p : List Byte) (h : Chains s ∧ ImageOk s) :
    Chains (s.restartCommand p).1 ∧ ImageOk (s.restartCommand p).1 := by
  unfold State.restartCommand
  split
  case isTrue hs =>
    have hstarted : s.restart.started = true := rfl
    exact ⟨h.1.congr (restart_chain s) (k_congr (restart_image s)) (hstarted.trans hs.symm), h.2.congr (restart_image s)⟩
  case isFalse => exact h

theorem hardwareReset_chains (h : t.chain = s.hardwareReset.chain) (himage : t.port.image = none)
    (hs : t.started = false) : Chains t ∧ ImageOk t := by
  have hdec (e : End) : (t.chain e).dec = .fresh 0 := by rw [h]; cases e <;> rfl
  have hdrv (e : End) : (t.chain e).drv = .fresh := by rw [h]; cases e <;> rfl
  refine ⟨fun e => (chainOk_iff e).mpr ⟨⟨?_, ?_, ?_, ?_, fun _ => ?_⟩, ?_⟩, fun i hi => ?_⟩
  · rw [hdec]; exact fresh_ok 0
  · rw [hdrv]; exact ⟨Nat.le_refl 1, by decide⟩
  · rw [hdrv]; exact ⟨Nat.le_refl 1, by decide⟩
  · rw [hdrv]; simp [State.driveHold, hs, Drive.fresh]
  · rw [hdec]; exact ⟨rfl, rfl⟩
  · rw [hdrv, State.report, report_count_of_open (by rw [hdec]; rfl)]
    exact ⟨rfl, rfl⟩
  · rw [himage] at hi; cases hi

theorem execHardwareReset_chains (edge : ResetEdge) (h : Chains s ∧ ImageOk s)
    (he : execHardwareReset s edge = .next t) : Chains t ∧ ImageOk t := by
  cases edge <;> obtain rfl := Host.Outcome.next.inj he
  · exact hardwareReset_chains rfl rfl rfl
  · exact hardwareReset_chains (s := s) rfl rfl rfl
  · exact ⟨h.1.congr (fun e => by cases e <;> rfl) rfl rfl, h.2.congr rfl⟩

theorem exec_chains {c : Instr} (hm : Modes s) (h : Chains s ∧ ImageOk s) (he : exec c s = .next t) :
    Chains t ∧ ImageOk t := by
  obtain hc | ⟨x, rfl⟩ | ⟨x, rfl⟩ | ⟨edge, rfl⟩ := ordinary_or c
  · by_cases hstart : ∃ x, c = .start x
    · obtain ⟨x, rfl⟩ := hstart
      exact Host.Outcome.next.inj he ▸ takeCommand_chains x (fun p _ => startCommand_chains p) h
    · by_cases hread : ∃ x, c = .readEvents x
      · obtain ⟨x, rfl⟩ := hread
        refine Host.Outcome.next.inj he ▸ takeCommand_chains x (fun p u hu => ?_) h
        exact ⟨hu.1.congr (fun e => by cases e <;> rfl) rfl rfl, hu.2.congr rfl⟩
      · exact (exec_moves hc (fun x hx => hstart ⟨x, hx⟩) (fun x hx => hread ⟨x, hx⟩) (fun _ => hm) he).chains h.1 h.2
  · exact Host.Outcome.next.inj he ▸ takeCommand_chains x (fun p _ => configure_chains p) h
  · exact Host.Outcome.next.inj he ▸ takeCommand_chains x (fun p _ => restartCommand_chains p) h
  · exact execHardwareReset_chains edge h he

/-- Settles O53: every move keeps the chain units sound, and so do START, CONFIGURE, RESTART and a hardware reset. -/
theorem stepKeepsChains : Obligations.StepKeepsChains := by
  intro s t hm hi hc h
  obtain rfl | ⟨c, rest, -, he⟩ := step_cases h
  · exact ⟨hc.congr (tick_chain s) (k_congr (by rw [tick_port])) (started_congr (by rw [tick_port])),
      hi.congr (by rw [tick_port])⟩
  · exact exec_chains (hm.setPending rest) ⟨hc.congr (fun e => by cases e <;> rfl) rfl rfl, hi.congr rfl⟩ he

end Sys2Proof.Machine
end

section
/-! What every command keeps (R41, R43, R145, R155, R157, R167), and that every command completes. -/

namespace Sys2Proof.Machine

variable {s t : State} {awake : Prop}

/-! ## What a move keeps -/

/-- No counter is lowered, the clock does not go back, the queue of commands is not touched, and image, mask and limit
stay. -/
structure Kept (s t : State) : Prop where
  now      : s.now ≤ t.now
  counters : s.bus.counters.le t.bus.counters
  pending  : t.pending = s.pending
  image    : t.port.image = s.port.image
  mask     : t.port.mask = s.port.mask
  limit    : t.grade.limit = s.grade.limit

theorem Kept.refl (s : State) : Kept s s := ⟨Nat.le_refl _, Counters.le_refl _, rfl, rfl, rfl, rfl⟩

theorem Kept.trans {u : State} (h : Kept s t) (h' : Kept t u) : Kept s u :=
  ⟨Nat.le_trans h.now h'.now, Counters.le_trans h.counters h'.counters, h'.pending.trans h.pending,
    h'.image.trans h.image, h'.mask.trans h.mask, h'.limit.trans h.limit⟩

theorem ControllerStep.kept (h : ControllerStep s t) : Kept s t :=
  ⟨Nat.le_of_eq h.now.symm, h.counters, h.pending, by rw [h.port], by rw [h.port], by rw [h.grade]⟩

/-- A change of chain units and port that keeps image and mask. -/
theorem Kept.of_eq (hnow : t.now = s.now) (hbus : t.bus = s.bus) (hpending : t.pending = s.pending)
    (himage : t.port.image = s.port.image) (hmask : t.port.mask = s.port.mask) (hlimit : t.grade.limit = s.grade.limit) :
    Kept s t :=
  ⟨Nat.le_of_eq hnow.symm, by rw [hbus]; exact Counters.le_refl _, hpending, himage, hmask, hlimit⟩

theorem setChain_kept (e : End) (u : ChainUnit) (s : State) : Kept s (s.setChain e u) := by
  apply Kept.of_eq <;> simp

theorem syncDrive_kept (e : End) (s : State) : Kept s (s.syncDrive e) := by
  apply Kept.of_eq <;> simp

theorem chainChanged_kept (e : End) (before : Triple) (s : State) : Kept s (s.chainChanged e before) := by
  unfold State.chainChanged
  dsimp only
  split
  · exact .refl s
  · exact (setChain_kept _ _ s).trans (((notify_cargoStep _ _).engine.trans
      (notifyIf_cargoStep _ _ _).engine).trans (trigger_engineStep _ _)).controller.kept

theorem changeUnit_kept (e : End) (f : ChainUnit → ChainUnit) (s : State) : Kept s (s.changeUnit e f) :=
  (((setChain_kept e _ s).trans (syncDrive_kept e _)).trans (notifyIf_cargoStep _ _ _).engine.controller.kept).trans
    (chainChanged_kept e _ _)

theorem Move.kept (h : Move awake s t) : Kept s t := by
  cases h with
  | controller h => exact h.kept
  | clock d => exact ⟨Nat.le_max_left _ _, Counters.le_refl _, rfl, rfl, rfl, rfl⟩
  | grade g hg => exact .of_eq rfl rfl rfl rfl rfl hg
  | port p _ himage hmask => exact .of_eq rfl rfl rfl himage hmask rfl
  | unit e f => exact changeUnit_kept e f s
  | boundary e => exact setChain_kept e _ s

theorem Moves.kept (h : Moves awake s t) : Kept s t := by
  induction h with
  | refl => exact .refl s
  | tail _ h ih => exact ih.trans h.kept

/-- A move clears no flag. -/
theorem Move.flags (h : Move awake s t) : s.port.flags ||| t.port.flags = t.port.flags := by
  cases h with
  | controller h => exact h.flags
  | clock | grade => exact BitVec.or_self
  | port p _ _ _ hflags => simp [hflags]
  | unit e f => exact (changeUnit_gains e f s).2
  | boundary e => simp

theorem Moves.flags (h : Moves awake s t) : s.port.flags ||| t.port.flags = t.port.flags := by
  induction h with
  | refl => exact BitVec.or_self
  | tail _ h ih => rw [← h.flags, ← BitVec.or_assoc, ih]

theorem flagSet_of_flags (h : s.port.flags ||| t.port.flags = t.port.flags) (n : Notice) (hs : s.flagSet n = true) :
    t.flagSet n = true := by
  unfold State.flagSet at hs ⊢
  rw [← h]
  simp [hs]

/-! ## The other commands -/

theorem transacts_kept {u : State} {p : Port} (h : u.port.Transacts p) : Kept u (u.setPort p) := by
  apply Kept.of_eq <;> simp <;> rw [h]

theorem takeCommand_kept (x : Transfer) {run : List Byte → State → State × List Byte}
    (hrun : ∀ p u, Kept u (run p u).1) : Kept s (s.takeCommand x run) :=
  takeCommand_keeps (P := Kept s) x (fun _ _ hp hu => hu.trans (transacts_kept hp)) (fun p u hu => hu.trans (hrun p u))
    (.refl s)

theorem unitsBegun_kept (s : State) : Kept s s.unitsBegun := by
  apply Kept.of_eq <;> simp [State.unitsBegun]

theorem releasedAtStart_kept (e : End) (s : State) : Kept s (s.releasedAtStart e) := by
  unfold State.releasedAtStart
  split
  · exact chainChanged_kept _ _ s
  · exact .refl s

theorem begin_kept (s : State) : Kept s s.begin := by
  rw [begin_eq]
  refine .trans (.trans (.trans (.trans (unitsBegun_kept s) ?_) (trigger_engineStep _ _).controller.kept)
    (releasedAtStart_kept _ _)) (releasedAtStart_kept _ _)
  refine ⟨Nat.le_refl _, Counters.le_refl _, rfl, rfl, rfl, ?_⟩
  simp [State.unitsBegun, GradeMonitor.begin]

theorem restart_kept (s : State) : Kept s s.restart := by
  simp only [State.restart, State.raiseEpoch]
  rw [changeEpoch_rest]
  exact ⟨Nat.le_refl _, Counters.le_refl _, rfl, rfl, rfl, rfl⟩

theorem startCommand_kept (p : List Byte) (s : State) : Kept s (s.startCommand p).1 := by
  unfold State.startCommand
  split_ifs
  · exact .refl s
  · exact .refl s
  · exact begin_kept s

theorem restartCommand_kept (p : List Byte) (s : State) : Kept s (s.restartCommand p).1 := by
  unfold State.restartCommand
  split
  · exact restart_kept s
  · exact .refl s

theorem readEventsCommand_kept (p : List Byte) (s : State) : Kept s (s.readEventsCommand p).1 :=
  .of_eq rfl rfl rfl rfl rfl rfl

/-- Every command but CONFIGURE and a hardware reset keeps all of it. -/
theorem exec_kept {c : Instr} (hconfigure : ∀ x, c ≠ .configure x) (hreset : ∀ edge, c ≠ .hardwareReset edge)
    (he : exec c s = .next t) : Kept s t := by
  obtain hc | ⟨x, rfl⟩ | ⟨x, rfl⟩ | ⟨edge, rfl⟩ := ordinary_or c
  · by_cases hstart : ∃ x, c = .start x
    · obtain ⟨x, rfl⟩ := hstart
      exact Host.Outcome.next.inj he ▸ takeCommand_kept x startCommand_kept
    · by_cases hread : ∃ x, c = .readEvents x
      · obtain ⟨x, rfl⟩ := hread
        exact Host.Outcome.next.inj he ▸ takeCommand_kept x readEventsCommand_kept
      · exact (exec_moves (awake := False) hc (fun x hx => hstart ⟨x, hx⟩) (fun x hx => hread ⟨x, hx⟩) False.elim he).kept
  · exact absurd rfl (hconfigure x)
  · exact Host.Outcome.next.inj he ▸ takeCommand_kept x restartCommand_kept
  · exact absurd rfl (hreset edge)

/-! ## Outcome loss, flags and SILENCED -/

theorem adopt_loss (limp : Bool) (r : Roster) (s : State) :
    s.cargo.outcomeLoss.toNat ≤ (s.adopt limp r).cargo.outcomeLoss.toNat := by
  unfold State.adopt
  simp only [State.notify_cargo, State.notifyIf_cargo, State.setComp_cargo, State.setBus_cargo]
  refine Nat.le_trans ?_ (renamePass_outside _).loss
  rfl

theorem EngineOp.loss (h : EngineOp s t) : s.cargo.outcomeLoss.toNat ≤ t.cargo.outcomeLoss.toNat := by
  cases h with
  | mark | table | append | offer | place => exact Nat.le_refl _
  | count => exact (count_outside _ s).loss
  | handIn => exact Nat.le_refl _
  | newEpoch e => rw [changeEpoch_rest]
  | settle r => exact adopt_loss false r s
  | limp => exact adopt_loss true _ s

theorem Op.loss (h : Op awake s t) : s.cargo.outcomeLoss.toNat ≤ t.cargo.outcomeLoss.toNat := by
  cases h with
  | engine h => exact h.loss
  | outside h => exact h.loss
  | halt => exact Nat.le_refl _
  | start _ e => rw [changeEpoch_rest]

theorem Ops.loss (h : Ops awake s t) : s.cargo.outcomeLoss.toNat ≤ t.cargo.outcomeLoss.toNat := by
  induction h with
  | refl => exact Nat.le_refl _
  | tail _ h ih => exact Nat.le_trans ih h.loss

/-- A halted engine stays halted, in its epoch. -/
theorem Op.halted (h : Op awake s t) (hs : s.comp.state = .halted) :
    t.comp.state = .halted ∧ t.comp.epoch = s.comp.epoch := by
  cases h with
  | engine h =>
    have hr := h.resting (by simp [State.live, hs])
    exact ⟨hr.state.trans hs, hr.epoch⟩
  | outside h => rw [h.comp]; exact ⟨hs, rfl⟩
  | halt => exact ⟨rfl, rfl⟩
  | start h => rw [hs] at h; cases h

theorem Ops.halted (h : Ops awake s t) (hs : s.comp.state = .halted) :
    t.comp.state = .halted ∧ t.comp.epoch = s.comp.epoch := by
  induction h with
  | refl => exact ⟨hs, rfl⟩
  | tail _ h ih =>
    obtain ⟨hstate, hepoch⟩ := h.halted ih.1
    exact ⟨hstate, hepoch.trans ih.2⟩

theorem transacts_flags {u : State} {p : Port} (h : u.port.Transacts p) : p.flags = u.port.flags := by rw [h]

/-- A port command that clears no flag clears none where it is taken. -/
theorem takeCommand_flags (x : Transfer) {run : List Byte → State → State × List Byte}
    (hrun : ∀ p u, u.port.flags ||| (run p u).1.port.flags = (run p u).1.port.flags) :
    s.port.flags ||| (s.takeCommand x run).port.flags = (s.takeCommand x run).port.flags := by
  refine takeCommand_keeps (P := fun u => s.port.flags ||| u.port.flags = u.port.flags) x (fun u p hp hu => ?_)
    (fun p u hu => ?_) BitVec.or_self
  · rwa [State.setPort_port, transacts_flags hp]
  · rw [← hrun p u, ← BitVec.or_assoc, hu]

theorem begin_flags (s : State) : s.port.flags ||| s.begin.port.flags = s.begin.port.flags := by
  obtain ⟨u, hu, hport, -⟩ := begin_cases s
  have hflags : u.port.flags = s.port.flags := by rw [hport]
  rw [hu, ← hflags]
  exact (Port.gains_trans (Port.gains_trans (trigger_engineStep _ _).port (releasedAtStart_gains _ _))
    (releasedAtStart_gains _ _)).2

theorem startCommand_flags (p : List Byte) (s : State) :
    s.port.flags ||| (s.startCommand p).1.port.flags = (s.startCommand p).1.port.flags := by
  unfold State.startCommand
  split_ifs
  · exact BitVec.or_self
  · exact BitVec.or_self
  · exact begin_flags s

theorem configure_flags (p : List Byte) (s : State) :
    s.port.flags ||| (s.configure p).1.port.flags = (s.configure p).1.port.flags := by
  obtain hc | ⟨-, i, mask, hc, -⟩ := configure_cases p s <;> rw [hc] <;> exact BitVec.or_self

theorem exec_flags {c : Instr} (hreset : ∀ edge, c ≠ .hardwareReset edge) (hread : ∀ x, c ≠ .readEvents x)
    (hrestart : ∀ x, c ≠ .restart x) (he : exec c s = .next t) : s.port.flags ||| t.port.flags = t.port.flags := by
  obtain hc | ⟨x, rfl⟩ | ⟨x, rfl⟩ | ⟨edge, rfl⟩ := ordinary_or c
  · by_cases hstart : ∃ x, c = .start x
    · obtain ⟨x, rfl⟩ := hstart
      exact Host.Outcome.next.inj he ▸ takeCommand_flags x startCommand_flags
    · exact (exec_moves (awake := False) hc (fun x hx => hstart ⟨x, hx⟩) hread False.elim he).flags
  · exact Host.Outcome.next.inj he ▸ takeCommand_flags x configure_flags
  · exact absurd rfl (hrestart x)
  · exact absurd rfl (hreset edge)

/-- What CONFIGURE keeps in every part state. -/
theorem takeConfigure_keeps (x : Transfer) (s : State) :
    (s.takeCommand x State.configure).now = s.now ∧ (s.takeCommand x State.configure).bus = s.bus ∧
      (s.takeCommand x State.configure).cargo = s.cargo ∧ (s.takeCommand x State.configure).pending = s.pending := by
  refine takeCommand_keeps (P := fun u => u.now = s.now ∧ u.bus = s.bus ∧ u.cargo = s.cargo ∧ u.pending = s.pending) x
    (fun _ _ _ hu => hu) (fun p u hu => ?_) ⟨rfl, rfl, rfl, rfl⟩
  obtain hc | ⟨-, i, mask, hc, -⟩ := configure_cases p u <;> rw [hc] <;> exact hu

/-- After START CONFIGURE changes nothing of the configuration. -/
theorem takeConfigure_fixed (x : Transfer) (hs : s.started = true) :
    (s.takeCommand x State.configure).port.image = s.port.image ∧
      (s.takeCommand x State.configure).port.mask = s.port.mask ∧
      (s.takeCommand x State.configure).grade.limit = s.grade.limit := by
  refine (takeCommand_keeps (P := fun u => u.started = true ∧ u.port.image = s.port.image ∧
    u.port.mask = s.port.mask ∧ u.grade.limit = s.grade.limit) x (fun u p hp hu => ?_) (fun p u hu => ?_)
    ⟨hs, rfl, rfl, rfl⟩).2
  · obtain ⟨hstarted, himage, hmask, hlimit⟩ := hu
    refine ⟨(started_congr ?_).trans hstarted, .trans ?_ himage, .trans ?_ hmask, hlimit⟩ <;>
      rw [State.setPort_port, hp]
  · obtain hc | ⟨hn, -⟩ := configure_cases p u
    · rw [hc]; exact hu
    · rw [hu.1] at hn; cases hn

theorem exec_loss {c : Instr} (hreset : ∀ edge, c ≠ .hardwareReset edge) (he : exec c s = .next t) :
    s.cargo.outcomeLoss.toNat ≤ t.cargo.outcomeLoss.toNat := by
  obtain hc | ⟨x, rfl⟩ | ⟨x, rfl⟩ | ⟨edge, rfl⟩ := ordinary_or c
  · exact (exec_ops (awake := False) hc False.elim he).loss
  · rw [← Host.Outcome.next.inj he, (takeConfigure_keeps x s).2.2.1]
  · rw [← Host.Outcome.next.inj he]
    refine takeCommand_keeps (P := fun u => s.cargo.outcomeLoss.toNat ≤ u.cargo.outcomeLoss.toNat) x
      (fun _ _ _ hu => hu) (fun p u hu => ?_) (Nat.le_refl _)
    unfold State.restartCommand
    split
    · exact hu
    · exact hu
  · exact absurd rfl (hreset edge)

/-- The configuration is fixed from START. -/
theorem exec_fixed {c : Instr} (hreset : ∀ edge, c ≠ .hardwareReset edge) (hs : s.port.part ≠ .unconfigured)
    (he : exec c s = .next t) :
    t.port.image = s.port.image ∧ t.port.mask = s.port.mask ∧ t.grade.limit = s.grade.limit := by
  by_cases hconfigure : ∃ x, c = .configure x
  · obtain ⟨x, rfl⟩ := hconfigure
    exact Host.Outcome.next.inj he ▸ takeConfigure_fixed x (started_iff.mpr hs)
  · have h := exec_kept (fun x hx => hconfigure ⟨x, hx⟩) hreset he
    exact ⟨h.image, h.mask, h.limit⟩

/-- The clock does not go back and no counter is lowered. -/
theorem exec_onward {c : Instr} (hreset : ∀ edge, c ≠ .hardwareReset edge) (he : exec c s = .next t) :
    s.now ≤ t.now ∧ s.bus.counters.le t.bus.counters := by
  by_cases hconfigure : ∃ x, c = .configure x
  · obtain ⟨x, rfl⟩ := hconfigure
    obtain ⟨hnow, hbus, -⟩ := takeConfigure_keeps x s
    rw [← Host.Outcome.next.inj he, hnow, hbus]
    exact ⟨Nat.le_refl _, Counters.le_refl _⟩
  · have h := exec_kept (fun x hx => hconfigure ⟨x, hx⟩) hreset he
    exact ⟨h.now, h.counters⟩

/-- SILENCED is left by RESTART and a hardware reset alone, and the epoch stays in it. -/
theorem exec_silenced {c : Instr} (hreset : ∀ edge, c ≠ .hardwareReset edge) (hrestart : ∀ x, c ≠ .restart x)
    (hm : Modes s) (hs : s.port.part = .silenced) (he : exec c s = .next t) :
    t.port.part = .silenced ∧ t.bus.tx = none ∧ t.comp.epoch = s.comp.epoch := by
  have hmt := exec_modes hm he
  have hhalted := hm.haltedIff.mpr hs
  have hcomp : t.comp.state = .halted ∧ t.comp.epoch = s.comp.epoch := by
    obtain hc | ⟨x, rfl⟩ | ⟨x, rfl⟩ | ⟨edge, rfl⟩ := ordinary_or c
    · exact (exec_ops (awake := False) hc False.elim he).halted hhalted
    · rw [← Host.Outcome.next.inj he, takeConfigure_comp]
      exact ⟨hhalted, rfl⟩
    · exact absurd rfl (hrestart x)
    · exact absurd rfl (hreset edge)
  have hpart := hmt.haltedIff.mp hcomp.1
  refine ⟨hpart, ?_, hcomp.2⟩
  simpa [hmt.silencedIff.mpr hpart] using hmt.txIff

/-- Settles O58: every command is a sequence of moves that keep all this, but for the commands the statement names. -/
theorem persistentStateIsKept : Obligations.PersistentStateIsKept := by
  intro c s t hreset he
  obtain ⟨hnow, hcounters⟩ := exec_onward hreset he
  exact ⟨fun hs => exec_fixed hreset hs he, fun hm hs hrestart => exec_silenced hreset hrestart hm hs he, hcounters,
    exec_loss hreset he, fun hread hrestart n => flagSet_of_flags (exec_flags hreset hread hrestart he) n, hnow⟩

/-! ## Every command completes -/

/-- Every row of the table answers a next state, whichever way its conditions fall. -/
theorem exec_completes (c : Instr) (s : State) : ∃ t, exec c s = .next t := by
  cases c <;> simp only [exec, execConfigure, execStart, execRestart, execSetCab, execIsolate, execRecompose, execSubmit,
    execWithdraw, execTake, execReadOutcomes, execReadRoster, execReadState, execReadEvents, execReadAnswer,
    execCommandOverrun, execAnswerReady, execHardwareReset, execPeriodBoundary, execCompletedPeriod, execLoss,
    execPartingSensed, execStuckHigh, execReleaseAsserted, execReleaseDeasserted, execBusIdle, execFrameReceived,
    execLostArbitration, execDominantReadRecessive, execStrike, execCleanCompletion, execRestTimerExpiry,
    execQuietHoldEnd, execCadenceTimer, execLastEntryTimeout, execRoundDeadline, execLimpRetry,
    execPresenceSchedulePoint, execMemberLost, execWindowEnd, execLifetimeExpiry, execStartBitSeen,
    execIntermissionPassed]
  all_goals repeat' split
  all_goals exact ⟨_, rfl⟩

/-- No command touches the waiting commands. -/
theorem exec_pending {c : Instr} (he : exec c s = .next t) : t.pending = s.pending := by
  obtain hc | ⟨x, rfl⟩ | ⟨x, rfl⟩ | ⟨edge, rfl⟩ := ordinary_or c
  · exact (exec_kept (fun x hx => by simp [hx, Ordinary] at hc) (fun x hx => by simp [hx, Ordinary] at hc) he).pending
  · rw [← Host.Outcome.next.inj he]
    exact (takeConfigure_keeps x s).2.2.2
  · exact (exec_kept (c := .restart x) nofun nofun he).pending
  · cases edge <;> obtain rfl := Host.Outcome.next.inj he <;> rfl

/-- Settles O60: every row answers a next state, and all that run on it keep the queue. -/
theorem everyCommandCompletes : Obligations.EveryCommandCompletes := by
  intro c s
  obtain ⟨t, he⟩ := exec_completes c s
  exact ⟨t, he, exec_pending he⟩

end Sys2Proof.Machine
end

section
/-! Walks, own runs and the rosters built of them (R93 to R111): every own run has 1..16 positions, no identity twice and
the own entry on it, and its roster is sound. -/

namespace Sys2Proof.Machine

/-! ## Walks -/

/-- The entries of a walk come from a list, no identity twice, and there is one. -/
structure Walk.Ok (entries : List HeardEntry) (w : Walk) : Prop where
  subset   : ∀ p ∈ w.placed, p.entry ∈ entries
  distinct : w.ids.Nodup
  nonempty : w.placed ≠ []

theorem Walk.ids_length (w : Walk) : w.ids.length = w.placed.length := List.length_map _

theorem walkOn_ok {entries : List HeardEntry} {current : Option Roster} (fuel : Nat) (last : Placed)
    (before : List Placed) (hsub : ∀ p ∈ last :: before, p.entry ∈ entries)
    (hnodup : ((last :: before).map fun p => p.entry.id).Nodup) {w : Walk}
    (h : walkOn entries current fuel last before = .walk w) : w.Ok entries := by
  have hends (e : Ending) : (⟨(last :: before).reverse, e⟩ : Walk).Ok entries := by
    refine ⟨fun p hp => hsub p (List.mem_reverse.mp hp), ?_, by simp⟩
    rw [Walk.ids, List.map_reverse]
    exact List.nodup_reverse.mpr hnodup
  induction fuel generalizing last before with
  | zero => exact WalkResult.walk.inj h ▸ hends _
  | succ fuel ih =>
    unfold walkOn at h
    dsimp only at h
    split_ifs at h
    · exact WalkResult.walk.inj h ▸ hends _
    · exact WalkResult.walk.inj h ▸ hends _
    · split at h
      · exact WalkResult.walk.inj h ▸ hends _
      case h_2 f _ =>
        split at h
        · exact WalkResult.walk.inj h ▸ hends _
        case h_2 m hm =>
          have hmem : m ∈ matchesOf entries current ((last :: before).map fun p => p.entry.id) last.entry
              last.near.other f (last :: before).length := by rw [hm]; exact List.mem_singleton.mpr rfl
          simp only [matchesOf, List.mem_filter, Bool.and_eq_true, Bool.not_eq_true'] at hmem
          obtain ⟨hmem, ⟨⟨⟨hnew, -⟩, -⟩, -⟩, -⟩ := hmem
          have hsub' : ∀ p ∈ (⟨m, f⟩ : Placed) :: last :: before, p.entry ∈ entries := by
            intro p hp
            obtain rfl | hp := List.mem_cons.mp hp
            · exact hmem
            · exact hsub p hp
          have hnodup' : (((⟨m, f⟩ : Placed) :: last :: before).map fun p => p.entry.id).Nodup := by
            rw [List.map_cons, List.nodup_cons]
            exact ⟨by simpa using hnew, hnodup⟩
          refine ih ⟨m, f⟩ (last :: before) hsub' hnodup' h fun e => ⟨fun p hp => hsub' p (List.mem_reverse.mp hp), ?_, by simp⟩
          rw [Walk.ids, List.map_reverse]
          exact List.nodup_reverse.mpr hnodup'
        · cases h

theorem mem_walksOf {rs : List WalkResult} {w : Walk} : w ∈ walksOf rs ↔ .walk w ∈ rs := by
  unfold walksOf
  rw [List.mem_filterMap]
  constructor
  · rintro ⟨r, hr, h⟩
    split at h
    · obtain rfl := Option.some.inj h; exact hr
    · cases h
  · exact fun h => ⟨_, h, rfl⟩

/-- Every walk of a table is one of its entries, no identity twice. -/
theorem allWalks_ok {entries : List HeardEntry} {current : Option Roster} {w : Walk}
    (h : w ∈ walksOf (allWalks entries current)) : w.Ok entries := by
  rw [mem_walksOf, allWalks, List.mem_map] at h
  obtain ⟨start, hstart, hw⟩ := h
  refine walkOn_ok _ start [] (fun p hp => ?_) (by simp) hw
  obtain rfl := List.mem_singleton.mp hp
  simp only [trueEnds, List.mem_flatMap, List.mem_map] at hstart
  obtain ⟨x, hx, e, -, rfl⟩ := hstart
  exact hx

/-! ## Slots of an own run -/

/-- The identities of a run, in the order of its positions. -/
def slotIds (slots : List RunSlot) : List Identity := (heardSlots slots).map fun p => p.entry.id

/-- An own run: 1..16 positions, no identity twice, the own entry among them. -/
structure SlotsOk (own : Identity) (slots : List RunSlot) : Prop where
  length   : 1 ≤ slots.length ∧ slots.length ≤ 16
  distinct : (slotIds slots).Nodup
  own      : own ∈ slotIds slots

theorem slotIds_append (a b : List RunSlot) : slotIds (a ++ b) = slotIds a ++ slotIds b := by
  simp [slotIds, heardSlots]

theorem slotIds_silent (n : Nat) : slotIds (List.replicate n none) = [] := by
  simp [slotIds, heardSlots]

theorem slotIds_map_some (l : List Placed) : slotIds (l.map some) = l.map fun p => p.entry.id := by
  simp [slotIds, heardSlots]

theorem slotIds_slots (w : Walk) : slotIds w.slots = w.ids := slotIds_map_some _

theorem slotIds_farSlots (w : Walk) : slotIds w.farSlots = w.ids.reverse := by
  have h : w.farSlots = (w.placed.reverse.map fun p => (⟨p.entry, p.near.other⟩ : Placed)).map some := by
    simp [Walk.farSlots]
  rw [h, slotIds_map_some, List.map_map, Walk.ids, ← List.map_reverse]
  rfl

theorem length_slots (w : Walk) : w.slots.length = w.placed.length := List.length_map _

theorem length_farSlots (w : Walk) : w.farSlots.length = w.placed.length := by simp [Walk.farSlots]

/-- A sub-table of a sound heard table: at most 16 entries of different identities. -/
structure EntriesOk (entries : List HeardEntry) : Prop where
  length   : entries.length ≤ 16
  distinct : (entries.map HeardEntry.id).Nodup

variable {entries : List HeardEntry} {own : Identity} {ws : List Walk}

/-- Identities of entries, none twice, are no more than the entries. -/
theorem EntriesOk.ids_length_le (h : EntriesOk entries) {ids : List Identity} (hnodup : ids.Nodup)
    (hsub : ∀ i ∈ ids, i ∈ entries.map HeardEntry.id) : ids.length ≤ 16 := by
  have hle := (hnodup.subperm hsub).length_le
  rw [List.length_map] at hle
  exact hle.trans h.length

theorem Walk.Ok.ids_subset {w : Walk} (h : w.Ok entries) : ∀ i ∈ w.ids, i ∈ entries.map HeardEntry.id := by
  intro i hi
  obtain ⟨p, hp, rfl⟩ := List.mem_map.mp hi
  exact List.mem_map_of_mem (h.subset p hp)

theorem Walk.Ok.length {w : Walk} (h : w.Ok entries) (he : EntriesOk entries) :
    1 ≤ w.placed.length ∧ w.placed.length ≤ 16 := by
  refine ⟨List.length_pos_iff.mpr h.nonempty, ?_⟩
  rw [← w.ids_length]
  exact he.ids_length_le h.distinct h.ids_subset

theorem Walk.Ok.slotsOk {w : Walk} (h : w.Ok entries) (he : EntriesOk entries) (hown : own ∈ w.ids) :
    SlotsOk own w.slots where
  length := by rw [length_slots]; exact h.length he
  distinct := by rw [slotIds_slots]; exact h.distinct
  own := by rwa [slotIds_slots]

theorem nodup_append_of_not_shareEntry {w w' : Walk} (h : w.Ok entries) (h' : w'.Ok entries)
    (hs : shareEntry w w' = false) : (w.ids ++ w'.ids.reverse).Nodup := by
  refine List.nodup_append.mpr ⟨h.distinct, List.nodup_reverse.mpr h'.distinct, ?_⟩
  rintro i hi j hj rfl
  simp only [shareEntry, List.any_eq_false, List.contains_iff_mem] at hs
  exact hs i hi (List.mem_reverse.mp hj)

/-- A failed or a successful mirror check: what a closed walk's run consists of. -/
theorem closedRun_cases {w : Walk} {slots : List RunSlot} {split : Bool} (h : closedRun ws w = .run slots split) :
    slots = w.slots ∨ ∃ w' ∈ ws, slots = w'.slots ∧ w'.ids.reverse = w.ids := by
  unfold closedRun at h
  split at h
  · cases h
  case h_2 w' hw' =>
    split at h
    case isTrue hm =>
      split at h
      · obtain ⟨rfl, rfl⟩ := RunResult.run.inj h
        obtain ⟨at_, -, hfind⟩ := Option.bind_eq_some_iff.mp hw'
        exact (ite_eq_or_eq _ _ _).imp id fun hslots => ⟨w', List.mem_of_find?_eq_some hfind, hslots, hm.2.2⟩
      · cases h
    case isFalse => cases h

theorem closedRun_slotsOk {w : Walk} {slots : List RunSlot} {split : Bool} (hws : ∀ w ∈ ws, w.Ok entries)
    (he : EntriesOk entries) (hw : w ∈ ws) (hown : own ∈ w.ids) (h : closedRun ws w = .run slots split) :
    SlotsOk own slots := by
  obtain rfl | ⟨w', hw', rfl, hids⟩ := closedRun_cases h
  · exact (hws w hw).slotsOk he hown
  · refine (hws w' hw').slotsOk he ?_
    rw [← hids] at hown
    exact List.mem_reverse.mp hown

theorem gapRun_slotsOk {w : Walk} {slots : List RunSlot} {split : Bool} (hws : ∀ w ∈ ws, w.Ok entries)
    (he : EntriesOk entries) (hw : w ∈ ws) (hown : own ∈ w.ids) (h : gapRun ws w = .run slots split) :
    SlotsOk own slots := by
  unfold gapRun at h
  dsimp only at h
  split at h
  case h_1 w' hpartners =>
    have hmem := List.mem_singleton.mpr (rfl : w' = w')
    rw [← hpartners, List.mem_filter] at hmem
    simp only [Bool.and_eq_true, decide_eq_true_eq, Bool.not_eq_true'] at hmem
    obtain ⟨hw', ⟨⟨⟨-, hshare⟩, hlt⟩, hlen⟩⟩ := hmem
    obtain ⟨rfl, rfl⟩ := RunResult.run.inj h
    have hpos := ((hws w hw).length he).1
    refine ⟨?_, ?_, ?_⟩
    · simp only [List.length_append, length_slots, length_farSlots, List.length_replicate]
      omega
    · rw [slotIds_append, slotIds_append, slotIds_slots, slotIds_silent, slotIds_farSlots, List.append_nil]
      exact nodup_append_of_not_shareEntry (hws w hw) (hws w' hw') hshare
    · rw [slotIds_append, slotIds_append, slotIds_slots]
      simp [hown]
  case h_2 =>
    obtain ⟨rfl, rfl⟩ := RunResult.run.inj h
    exact (hws w hw).slotsOk he hown

theorem faultRun_slotsOk {w : Walk} {slots : List RunSlot} {split : Bool} (hws : ∀ w ∈ ws, w.Ok entries)
    (he : EntriesOk entries) (hw : w ∈ ws) (hown : own ∈ w.ids) (h : faultRun ws own w = .run slots split) :
    SlotsOk own slots := by
  unfold faultRun at h
  dsimp only at h
  split at h
  case h_1 w' hpartners =>
    have hmem := List.mem_singleton.mpr (rfl : w' = w')
    rw [← hpartners, List.mem_filter] at hmem
    simp only [Bool.and_eq_true, Bool.not_eq_true'] at hmem
    obtain ⟨hw', -, hshare⟩ := hmem
    obtain ⟨rfl, rfl⟩ := RunResult.run.inj h
    have hnodup := nodup_append_of_not_shareEntry (hws w hw) (hws w' hw') hshare
    have hpos := ((hws w hw).length he).1
    have hmax := he.ids_length_le hnodup fun i hi => by
      obtain hi | hi := List.mem_append.mp hi
      · exact (hws w hw).ids_subset i hi
      · exact (hws w' hw').ids_subset i (List.mem_reverse.mp hi)
    refine ⟨?_, ?_, ?_⟩
    · simp only [List.length_append, List.length_reverse, Walk.ids_length] at hmax
      simp only [List.length_append, length_slots, length_farSlots]
      omega
    · rwa [slotIds_append, slotIds_slots, slotIds_farSlots]
    · rw [slotIds_append, slotIds_slots]
      exact List.mem_append_left _ hown
  case h_2 =>
    obtain ⟨rfl, rfl⟩ := RunResult.run.inj h
    exact (hws w hw).slotsOk he hown

/-! ## Own runs -/

theorem mem_of_mem_decisive {rs : List RunResult} {r : RunResult} (h : r ∈ decisive rs) : r ∈ rs := by
  unfold decisive at h
  split at h
  · exact h
  case h_2 hf => exact List.mem_of_mem_filter h

/-- Every own run that step 4 finds has 1..16 positions, no identity twice and the own entry on it. -/
theorem ownRuns_slotsOk {slots : List RunSlot} {split : Bool} (hws : ∀ w ∈ ws, w.Ok entries)
    (he : EntriesOk entries) (h : .run slots split ∈ ownRuns ws own) : SlotsOk own slots := by
  unfold ownRuns at h
  dsimp only at h
  split at h
  · split at h
    · simp at h
    case h_2 w hmine =>
      have hmem := List.mem_singleton.mpr (rfl : w = w)
      rw [← hmine, List.mem_filter, List.contains_iff_mem] at hmem
      have h' := (List.mem_singleton.mp h).symm
      split at h'
      · exact gapRun_slotsOk hws he hmem.1 hmem.2 h'
      · exact faultRun_slotsOk hws he hmem.1 hmem.2 h'
      · cases h'
    · simp at h
  · obtain ⟨w, hw, hrun⟩ := List.mem_map.mp (mem_of_mem_decisive h)
    have hmem := (List.mem_filter.mp (List.mem_filter.mp hw).1)
    exact closedRun_slotsOk hws he hmem.1 (List.contains_iff_mem.mp hmem.2) hrun

/-- What is picked is one of the alternatives, or stands in for none. -/
theorem pickBy_mem {α : Type} [DecidableEq α] (choice : Nat) (alternatives : List α) (fallback : α) :
    pickBy choice alternatives fallback ∈ alternatives ∨
      pickBy choice alternatives fallback = fallback := by
  unfold pickBy
  split
  · exact .inr rfl
  case h_2 x hx => exact .inl (List.mem_eraseDups.mp (hx ▸ List.mem_singleton.mpr rfl))
  case h_3 hne _ =>
    left
    rw [← List.mem_eraseDups, List.getD_eq_getElem?_getD]
    have hpos : 0 < alternatives.eraseDups.length := List.length_pos_iff.mpr hne
    have hlt := Nat.mod_lt choice hpos
    rw [List.getElem?_eq_getElem hlt, Option.getD_some]
    exact List.getElem_mem hlt

theorem ownRun_slotsOk {slots : List RunSlot} {split : Bool} (hws : ∀ w ∈ ws, w.Ok entries)
    (he : EntriesOk entries) (h : ownRun ws own = .run slots split) : SlotsOk own slots := by
  obtain hmem | hfall := pickBy_mem (Config.ownWalkChoice (ws.map Walk.ids)) (ownRuns ws own) .unplaced
  · rw [ownRun] at h
    exact ownRuns_slotsOk hws he (h ▸ hmem)
  · rw [ownRun, hfall] at h
    cases h

theorem ownRunFull_slotsOk {slots : List RunSlot} {split : Bool} (hws : ∀ w ∈ ws, w.Ok entries)
    (he : EntriesOk entries) (h : ownRunFull ws own = .run slots split) : SlotsOk own slots := by
  obtain hmem | hfall := pickBy_mem (Config.ownWalkChoice (ws.map Walk.ids))
    ((ownRuns ws own).map RunResult.forget) .unplaced
  · rw [ownRunFull] at h
    rw [h] at hmem
    obtain ⟨r, hr, hforget⟩ := List.mem_map.mp hmem
    cases r with
    | run slots' split' =>
      obtain ⟨rfl, rfl⟩ := RunResult.run.inj hforget
      exact ownRuns_slotsOk hws he hr
    | _ => cases hforget
  · rw [ownRunFull, hfall] at h
    cases h

/-! ## The roster of an own run -/

theorem positionFrom_some {id : Identity} {l : List RosterEntry} {k p : Nat} (h : positionFrom id l k = some p) :
    k ≤ p ∧ l[p - k]?.bind RosterEntry.id? = some id := by
  induction l generalizing k with
  | nil => cases h
  | cons e es ih =>
    unfold positionFrom at h
    split at h
    case isTrue he =>
      obtain rfl := Option.some.inj h
      exact ⟨Nat.le_refl _, by simpa using he⟩
    case isFalse =>
      obtain ⟨hle, hid⟩ := ih h
      refine ⟨by omega, ?_⟩
      have hsub : p - k = p - (k + 1) + 1 := by omega
      rwa [hsub, List.getElem?_cons_succ]

theorem positionFrom_isSome {id : Identity} {l : List RosterEntry} (h : id ∈ l.filterMap RosterEntry.id?) (k : Nat) :
    (positionFrom id l k).isSome := by
  induction l generalizing k with
  | nil => simp at h
  | cons e es ih =>
    unfold positionFrom
    split
    · rfl
    case isFalse he =>
      refine ih ?_ (k + 1)
      obtain ⟨x, hx, hid⟩ := List.mem_filterMap.mp h
      obtain rfl | hx := List.mem_cons.mp hx
      · exact absurd hid he
      · exact List.mem_filterMap.mpr ⟨x, hx, hid⟩

theorem rosterEntry_id? (refLeads : Bool) (win : Option Placed) (slot : RunSlot) :
    (rosterEntry refLeads win slot).id? = slot.map fun p => p.entry.id := by
  cases slot <;> rfl

/-- The identities of a roster are those of its run, from one end or the other. -/
theorem numbered_ids (slots : List RunSlot) : (numbered slots).filterMap RosterEntry.id? =
    if referenceLeads slots then slotIds slots else (slotIds slots).reverse := by
  have hids (l : List RunSlot) (b : Bool) (w : Option Placed) :
      (l.map (rosterEntry b w)).filterMap RosterEntry.id? = slotIds l := by
    rw [List.filterMap_map, slotIds, heardSlots, List.map_filterMap]
    refine List.filterMap_congr fun slot _ => ?_
    rw [Function.comp, rosterEntry_id?]
    cases slot <;> rfl
  have hreverse : slotIds slots.reverse = (slotIds slots).reverse := by
    simp [slotIds, heardSlots, List.filterMap_reverse]
  unfold numbered
  dsimp only
  split
  · rw [hids]
  · rw [hids, hreverse]

theorem numbered_length (slots : List RunSlot) : (numbered slots).length = slots.length := by
  unfold numbered
  dsimp only
  split <;> simp

theorem buildRoster_status (limp : Bool) (epoch : Epoch) (slots : List RunSlot) (split : Bool) :
    (buildRoster limp epoch own slots split).status = .limp ↔ limp = true := by
  cases limp <;> simp [buildRoster]
  split <;> simp

/-- A roster built of an own run is sound. -/
theorem buildRoster_ok {slots : List RunSlot} (h : SlotsOk own slots) (limp : Bool) (epoch : Epoch) (split : Bool) :
    RosterOk own (buildRoster limp epoch own slots split) := by
  have hown : own ∈ (numbered slots).filterMap RosterEntry.id? := by
    rw [numbered_ids]
    split
    · exact h.own
    · exact List.mem_reverse.mpr h.own
  obtain ⟨p, hp⟩ := Option.isSome_iff_exists.mp (positionFrom_isSome hown 1)
  obtain ⟨hle, hid⟩ := positionFrom_some hp
  constructor
  case length => rw [Roster.n, buildRoster, numbered_length]; exact h.length
  case distinct =>
    show ((numbered slots).filterMap RosterEntry.id?).Nodup
    rw [numbered_ids]
    split
    · exact h.distinct
    · exact List.nodup_reverse.mpr h.distinct
  case ownEntry =>
    have hpos : (buildRoster limp epoch own slots split).ownPos = p := by simp [buildRoster, hp]
    rw [hpos, Roster.idAt, if_neg (by omega)]
    exact hid
  case digest => rfl
  case limp =>
    intro hs
    obtain rfl := (buildRoster_status _ _ _ _).mp hs
    exact ⟨rfl, rfl⟩
  all_goals cases limp <;> simp [buildRoster]

/-! ## Placement -/

theorem insertById_perm (e : HeardEntry) (l : List HeardEntry) : (insertById e l).Perm (e :: l) := by
  induction l with
  | nil => exact .refl _
  | cons x xs ih =>
    unfold insertById
    split
    · exact .refl _
    · exact (ih.cons x).trans (.swap e x xs)

theorem sortById_perm (l : List HeardEntry) : (sortById l).Perm l := by
  induction l with
  | nil => exact .refl _
  | cons x xs ih => exact (insertById_perm x _).trans (ih.cons x)

theorem EntriesOk.sorted (h : EntriesOk entries) : EntriesOk (sortById entries) :=
  ⟨(sortById_perm entries).length_eq ▸ h.length, ((sortById_perm entries).map HeardEntry.id).nodup_iff.mpr h.distinct⟩

theorem EntriesOk.filter (h : EntriesOk entries) (f : HeardEntry → Bool) : EntriesOk (entries.filter f) :=
  ⟨(List.length_filter_le f entries).trans h.length, h.distinct.sublist (List.filter_sublist.map _)⟩

/-- A roster that full placement finds is sound, of the epoch given, and no limp one. -/
theorem place_ok {overflow : Bool} {current : Option Roster} {epoch : Epoch} {r : Roster} (he : EntriesOk entries)
    (h : place entries overflow current epoch own = .success r) :
    RosterOk own r ∧ r.status ≠ .limp ∧ r.epoch = epoch := by
  unfold place at h
  split_ifs at h
  dsimp only at h
  split at h
  · unfold placementOfRun at h
    split at h
    case h_1 slots split hrun =>
      obtain rfl := PlacementResult.success.inj h
      refine ⟨buildRoster_ok (ownRunFull_slotsOk (fun w => allWalks_ok) he.sorted hrun) _ _ _, ?_, rfl⟩
      rw [Ne, buildRoster_status]
      simp
    all_goals cases h
  · cases h

theorem aloneSlots_ok (x : HeardEntry) : SlotsOk x.id (aloneSlots x) := by
  refine ⟨?_, ?_, ?_⟩ <;> simp [aloneSlots, slotIds, heardSlots]

theorem limpRun_slotsOk (current : Option Roster) (x : HeardEntry) (fuel : Nat) (he : EntriesOk entries) :
    SlotsOk x.id (limpRun current x fuel entries).1 := by
  induction fuel generalizing entries with
  | zero => exact aloneSlots_ok x
  | succ fuel ih =>
    unfold limpRun
    dsimp only
    split
    · split
      case h_1 hrun => exact ownRun_slotsOk (fun w => allWalks_ok) he hrun
      case h_2 => exact ih (he.filter _)
      · exact aloneSlots_ok x
      · exact aloneSlots_ok x
    · exact ih (he.filter _)

/-- A limp roster is sound, of the epoch given, and of status LIMP. -/
theorem limpRoster_ok (current : Option Roster) (epoch : Epoch) (x : HeardEntry) (he : EntriesOk entries) :
    RosterOk x.id (limpRoster entries current epoch x) ∧ (limpRoster entries current epoch x).status = .limp ∧
      (limpRoster entries current epoch x).epoch = epoch := by
  have hslots := limpRun_slotsOk current x (entries.length + 1) he.sorted
  unfold limpRoster
  generalize limpRun current x (entries.length + 1) (sortById entries) = found at hslots ⊢
  obtain ⟨slots, split⟩ := found
  exact ⟨buildRoster_ok hslots _ _ _, (buildRoster_status _ _ _ _).mpr rfl, rfl⟩

end Sys2Proof.Machine
end

section
/-! The three rosters through every step (R63, R72, R74, R82, R105, R107, R108, R112). -/

namespace Sys2Proof.Machine

variable {s t : State}

theorem TableOk.entriesOk (h : TableOk s) : EntriesOk s.comp.table := ⟨h.length, h.distinct⟩

/-- The rosters' soundness depends on the engine's state, epoch and rosters, and on the identity. -/
theorem RostersOk.congr (h : RostersOk s) (hstate : t.comp.state = s.comp.state) (hepoch : t.comp.epoch = s.comp.epoch)
    (hpending : t.comp.pendingRoster = s.comp.pendingRoster) (hcurrent : t.comp.current = s.comp.current)
    (hprevious : t.comp.previous = s.comp.previous) (hid : t.identity = s.identity) : RostersOk t := by
  obtain ⟨h1, h2, h3, h4, h5, h6, h7⟩ := h
  constructor <;> simpa only [hstate, hepoch, hpending, hcurrent, hprevious, hid]

theorem RostersOk.congr_comp (h : RostersOk s) (hcomp : t.comp = s.comp) (hid : t.identity = s.identity) :
    RostersOk t := h.congr (by rw [hcomp]) (by rw [hcomp]) (by rw [hcomp]) (by rw [hcomp]) (by rw [hcomp]) hid

/-- Where a round begins or goes on, or the engine halts, the pending roster is given up and the others stay. -/
theorem RostersOk.giveUp (h : RostersOk s) (hstate : t.comp.state = .quiet ∨ t.comp.state = .offer ∨ t.comp.state = .halted)
    (hpending : t.comp.pendingRoster = none) (hcurrent : t.comp.current = s.comp.current)
    (hprevious : t.comp.previous = s.comp.previous) (hid : t.identity = s.identity) : RostersOk t where
  each r hr := by
    rw [hpending, hcurrent, hprevious] at hr
    rw [hid]
    exact h.each r (hr.resolve_left nofun |> .inr)
  idle hs := by obtain hst | hst | hst := hstate <;> rw [hst] at hs <;> cases hs
  previous := by rw [hcurrent, hprevious]; exact h.previous
  pending := by obtain hst | hst | hst := hstate <;> simp [hst, hpending]
  found r hr := by rw [hpending] at hr; cases hr
  settled hs := by obtain hst | hst | hst := hstate <;> rw [hst] at hs <;> cases hs
  limp hs := by obtain hst | hst | hst := hstate <;> rw [hst] at hs <;> cases hs

theorem changeEpoch_rostersOk (e : Epoch) (h : RostersOk s) : RostersOk (s.changeEpoch e) :=
  h.giveUp (by simp [changeEpoch_comp]) (by rw [changeEpoch_comp]) (by rw [changeEpoch_comp]) (by rw [changeEpoch_comp])
    (changeEpoch_engineStep e s).identity

/-- A roster found by placement is pending in CONFIRM. -/
theorem place_rostersOk {r : Roster} (ht : TableOk s) (h : RostersOk s)
    (hr : place s.comp.table s.comp.overflow s.comp.current s.comp.epoch s.identity = .success r) :
    RostersOk (s.setComp { s.comp with state := .confirm, pendingRoster := some r }) := by
  obtain ⟨hok, hstatus, hepoch⟩ := place_ok ht.entriesOk hr
  constructor
  case each =>
    rintro q (hq | hq)
    · exact Option.some.inj hq ▸ hok
    · exact h.each q (.inr hq)
  case previous => exact h.previous
  case found =>
    intro q hq
    obtain rfl := Option.some.inj hq
    exact ⟨hstatus, hepoch⟩
  all_goals simp

/-- Adoption of a sound roster of the own epoch. -/
theorem adopt_rostersOk {limp : Bool} {r : Roster} (h : RostersOk s) (hr : RosterOk s.identity r)
    (hstatus : r.status = .limp ↔ limp = true) (hepoch : r.epoch = s.comp.epoch) : RostersOk (s.adopt limp r) := by
  have hid := (adopt_engineStep limp r s).identity
  have hstate := adopt_state limp r s
  constructor
  case each =>
    intro q hq
    rw [hid]
    rw [adopt_comp] at hq
    obtain hq | hq | hq := hq
    · cases hq
    · exact Option.some.inj hq ▸ hr
    · dsimp only at hq
      split at hq
      case h_1 cur hcur => exact h.each q (.inr (.inl (hcur.trans hq)))
      case h_2 => exact h.each q (.inr (.inr hq))
  case idle => intro hs; rw [hstate] at hs; cases limp <;> cases hs
  case previous => intro _; rw [adopt_comp]; rfl
  case pending => rw [hstate, adopt_comp]; cases limp <;> simp
  case found => intro q hq; rw [adopt_comp] at hq; cases hq
  case settled =>
    intro hs
    rw [hstate] at hs
    rw [adopt_comp]
    cases limp
    · exact ⟨r, rfl, by simp [hstatus], hepoch⟩
    · cases hs
  case limp =>
    intro hs
    rw [hstate] at hs
    rw [adopt_comp]
    cases limp
    · cases hs
    · exact ⟨r, rfl, by simp [hstatus], hepoch⟩

theorem findEntry_getD_id (id : Identity) (table : List HeardEntry) {x : HeardEntry} (hx : x.id = id) :
    ((findEntry id table).getD x).id = id := by
  cases hf : findEntry id table with
  | none => exact hx
  | some y => exact (findEntry_some hf).2

theorem enterLimp_rostersOk (ht : TableOk s) (h : RostersOk s) : RostersOk s.enterLimp := by
  have hown := findEntry_getD_id s.identity s.comp.table (x := s.ownEntry) rfl
  obtain ⟨hok, hstatus, hepoch⟩ := limpRoster_ok s.comp.current s.comp.epoch
    ((findEntry s.identity s.comp.table).getD s.ownEntry) ht.entriesOk
  unfold State.enterLimp
  dsimp only
  generalize (findEntry s.identity s.comp.table).getD s.ownEntry = own at hown hok hstatus hepoch ⊢
  generalize limpRoster s.comp.table s.comp.current s.comp.epoch own = r at hok hstatus hepoch ⊢
  exact adopt_rostersOk h (hown ▸ hok) (by simp [hstatus]) hepoch

theorem EngineOp.rostersOk (hop : EngineOp s t) (ht : TableOk s) (h : RostersOk s) : RostersOk t := by
  have hi := hop.engineStep.identity
  cases hop with
  | mark c hc => exact h.congr hc.state hc.epoch hc.pending hc.current hc.previous hi
  | count | handIn | table | append => exact h.congr rfl rfl rfl rfl rfl hi
  | newEpoch e => exact changeEpoch_rostersOk e h
  | offer => exact h.giveUp (.inr (.inl rfl)) rfl rfl rfl hi
  | place r _ hr => exact place_rostersOk ht h hr
  | settle r _ hr =>
    obtain ⟨hstatus, hepoch⟩ := h.found r hr
    exact adopt_rostersOk h (h.each r (.inl hr)) (by simp [hstatus]) hepoch
  | limp => exact enterLimp_rostersOk ht h

theorem Op.rostersOk {awake : Prop} (hop : Op awake s t) (ht : TableOk s) (h : RostersOk s) : RostersOk t := by
  cases hop with
  | engine hop => exact hop.rostersOk ht h
  | outside hop => exact h.congr_comp hop.comp (identity_congr hop.image)
  | halt => exact h.giveUp (.inr (.inr rfl)) rfl rfl rfl rfl
  | start _ e => exact changeEpoch_rostersOk e h

theorem Ops.rostersOk (hops : Ops True s t) (ht : TableOk s) (h : RostersOk s) : TableOk t ∧ RostersOk t := by
  induction hops with
  | refl => exact ⟨ht, h⟩
  | tail _ hop ih => exact ⟨hop.tableOk ih.1, hop.rostersOk ih.1 ih.2⟩

/-! ## CONFIGURE, RESTART, a hardware reset and the step -/

/-- Without a roster there is nothing to be sound. -/
theorem RostersOk.of_none (hpending : s.comp.pendingRoster = none) (hcurrent : s.comp.current = none)
    (hprevious : s.comp.previous = none) (hstate : s.comp.state = .idle ∨ s.comp.state = .quiet) : RostersOk s := by
  constructor
  case each => rw [hpending, hcurrent, hprevious]; rintro r (hr | hr | hr) <;> cases hr
  case idle => exact fun _ => hcurrent
  all_goals obtain hs | hs := hstate <;> simp [hpending, hprevious, hs]

theorem RostersOk.none_of_idle (h : RostersOk s) (hs : s.comp.state = .idle) :
    s.comp.pendingRoster = none ∧ s.comp.current = none ∧ s.comp.previous = none := by
  have hcurrent := h.idle hs
  refine ⟨?_, hcurrent, ?_⟩
  · by_contra hne
    have := h.pending.mp (Option.isSome_iff_ne_none.mpr hne)
    rw [hs] at this
    cases this
  · by_contra hne
    have := h.previous (Option.isSome_iff_ne_none.mpr hne)
    rw [hcurrent] at this
    cases this

theorem takeConfigure_rostersOk (x : Transfer) (hm : Modes s) (h : RostersOk s) :
    RostersOk (s.takeCommand x State.configure) := by
  have hc := takeConfigure_comp x s
  by_cases hs : s.port.part = .unconfigured
  · have hidle := hm.idleIff.mpr hs
    obtain ⟨hpending, hcurrent, hprevious⟩ := h.none_of_idle hidle
    exact .of_none (hc ▸ hpending) (hc ▸ hcurrent) (hc ▸ hprevious) (.inl (hc ▸ hidle))
  · exact h.congr_comp hc (identity_congr (takeConfigure_image x (started_iff.mpr hs)))

theorem restartCommand_rostersOk (p : List Byte) (h : RostersOk s) : RostersOk (s.restartCommand p).1 := by
  unfold State.restartCommand
  split
  · refine .of_none ?_ ?_ ?_ (.inr ?_) <;> simp [State.restart, State.done, State.raiseEpoch, changeEpoch_comp] <;> rfl
  · exact h

theorem exec_rostersOk {c : Instr} (h : exec c s = .next t) (hm : Modes s) (ht : TableOk s) (hr : RostersOk s) :
    RostersOk t := by
  obtain hc | ⟨x, rfl⟩ | ⟨x, rfl⟩ | ⟨edge, rfl⟩ := ordinary_or c
  · exact ((exec_ops hc (fun _ => hm) h).rostersOk ht hr).2
  · exact Host.Outcome.next.inj h ▸ takeConfigure_rostersOk x hm hr
  · refine Host.Outcome.next.inj h ▸ takeCommand_keeps x ?_ (fun p _ => restartCommand_rostersOk p) hr
    exact fun u p hp hu => hu.congr_comp rfl (identity_congr (by rw [hp]; rfl))
  · cases edge <;> obtain rfl := Host.Outcome.next.inj h
    · exact .of_none rfl rfl rfl (.inl rfl)
    · exact .of_none rfl rfl rfl (.inl rfl)
    · exact hr.congr_comp rfl rfl

/-- Settles O57: every change of the machine keeps the rosters sound, beside a sound heard table. -/
theorem stepKeepsRosters : Obligations.StepKeepsRosters := by
  intro s t hm ht hr h
  obtain rfl | ⟨c, rest, -, hexec⟩ := step_cases h
  · exact hr.congr_comp (tick_comp s) (identity_congr (by rw [tick_port]))
  · exact exec_rostersOk hexec (hm.setPending rest) (ht.congr rfl rfl rfl rfl) (hr.congr_comp rfl rfl)

end Sys2Proof.Machine
end

section
/-! The cargo router's operations keep queues and flight sound (R125, R127, R130, R131, R133, R136, R140, R143, R145). -/

namespace Sys2Proof.Machine

variable {s t : State} {c : Cargo} {flight : Option Nat}

/-! ## Sound queues with an entry in flight or none -/

/-- A transmit entry by itself (R125, R127). -/
structure TxEntry.Ok (x : TxEntry) : Prop where
  ticket   : 1 ≤ x.ticket ∧ x.ticket ≤ 255
  attempts : x.attempts < 3
  payload  : 1 ≤ x.payload.length ∧ x.payload.length ≤ 128
  marks    : x.lapsed = true ∨ x.renameOwed = true → x.inFlight = true

/-- The queues are sound, and the entry of the ticket in flight, where there is one, is the one marked so. -/
structure Cargo.Sound (flight : Option Nat) (c : Cargo) : Prop where
  length     : c.queue.length ≤ 24
  distinct   : (c.queue.map TxEntry.ticket).Nodup
  entries    : ∀ x ∈ c.queue, x.Ok ∧ (x.inFlight = true ↔ flight = some x.ticket)
  there      : ∀ k, flight = some k → ∃ x ∈ c.queue, x.ticket = k
  received   : c.received.length ≤ 16
  outcomes   : c.outcomes.length ≤ 32
  lastTicket : 1 ≤ c.lastTicket ∧ c.lastTicket ≤ 255

theorem sound_iff : s.cargo.Sound s.flight ↔ QueueOk s.cargo ∧ FlightOk s :=
  ⟨fun h => ⟨⟨h.length, h.distinct, fun x hx => (h.entries x hx).1.ticket, fun x hx => (h.entries x hx).1.attempts,
      fun x hx => (h.entries x hx).1.payload, fun x hx => (h.entries x hx).1.marks, h.received, h.outcomes,
      h.lastTicket⟩, fun x hx => (h.entries x hx).2, h.there⟩,
    fun ⟨q, f⟩ => ⟨q.length, q.distinct, fun x hx => ⟨⟨q.tickets x hx, q.attempts x hx, q.payloads x hx, q.marks x hx⟩,
      f.1 x hx⟩, f.2, q.received, q.outcomes, q.lastTicket⟩⟩

/-! ## The queue's operations -/

theorem Cargo.Sound.post (h : s.cargo.Sound flight) (ticket : Nat) (k : OutcomeKind) (p : Option Nat) :
    (s.post ticket k p).cargo.Sound flight := by
  obtain ⟨h1, h2, h3, h4, h5, h6, h7⟩ := h
  unfold State.post
  split
  · exact ⟨h1, h2, h3, h4, h5, by simp; omega, h7⟩
  · exact ⟨h1, h2, h3, h4, h5, h6, h7⟩

/-- The entry of a ticket changed, with another flight of that ticket or the same. -/
theorem Cargo.Sound.mapEntry (h : s.cargo.Sound flight) {ticket : Nat} {f : TxEntry → TxEntry} {flight' : Option Nat}
    (hf : ∀ x ∈ s.cargo.queue, x.ticket = ticket →
      (f x).ticket = ticket ∧ (f x).Ok ∧ ((f x).inFlight = true ↔ flight' = some ticket))
    (hother : ∀ k, k ≠ ticket → (flight' = some k ↔ flight = some k))
    (hthere : flight' = some ticket → ∃ x ∈ s.cargo.queue, x.ticket = ticket) :
    (s.mapEntry ticket f).cargo.Sound flight' := by
  have hticket : ∀ x ∈ s.cargo.queue, (if x.ticket = ticket then f x else x).ticket = x.ticket := by
    intro x hx
    split
    case isTrue hk => rw [(hf x hx hk).1, hk]
    case isFalse => rfl
  have htickets : (s.mapEntry ticket f).cargo.queue.map TxEntry.ticket = s.cargo.queue.map TxEntry.ticket := by
    simp only [State.mapEntry, State.setCargo_cargo, List.map_map]
    exact List.map_congr_left hticket
  constructor
  case length => simpa [State.mapEntry] using h.length
  case distinct => rw [htickets]; exact h.distinct
  case entries =>
    intro y hy
    obtain ⟨x, hx, rfl⟩ := List.mem_map.mp hy
    split
    case isTrue hk =>
      obtain ⟨hticket, hok, hflight⟩ := hf x hx hk
      exact ⟨hok, by rw [hticket]; exact hflight⟩
    case isFalse hk =>
      obtain ⟨hok, hflight⟩ := h.entries x hx
      exact ⟨hok, by rw [hother x.ticket hk]; exact hflight⟩
  case there =>
    intro k hk
    have hin : k ∈ s.cargo.queue.map TxEntry.ticket := by
      rw [List.mem_map]
      by_cases hkt : k = ticket
      · subst hkt; exact hthere hk
      · exact h.there k ((hother k hkt).mp hk)
    rw [← htickets, List.mem_map] at hin
    exact hin
  case received => exact h.received
  case outcomes => exact h.outcomes
  case lastTicket => exact h.lastTicket

/-- The entry of a ticket removed, which is the one in flight or is not in flight. -/
theorem Cargo.Sound.dropEntry (h : s.cargo.Sound flight) {ticket : Nat} {flight' : Option Nat}
    (hother : ∀ k, k ≠ ticket → (flight' = some k ↔ flight = some k)) (hgone : flight' ≠ some ticket) :
    (s.dropEntry ticket).cargo.Sound flight' := by
  have hmem : ∀ {x}, x ∈ (s.dropEntry ticket).cargo.queue ↔ x ∈ s.cargo.queue ∧ x.ticket ≠ ticket := by
    simp [State.dropEntry]
  constructor
  case length => exact (List.length_filter_le _ _).trans h.length
  case distinct => exact h.distinct.sublist (List.filter_sublist.map _)
  case entries =>
    intro x hx
    obtain ⟨hx, hk⟩ := hmem.mp hx
    obtain ⟨hok, hflight⟩ := h.entries x hx
    exact ⟨hok, by rw [hother _ hk]; exact hflight⟩
  case there =>
    intro k hk
    have hkt : k ≠ ticket := by rintro rfl; exact hgone hk
    obtain ⟨x, hx, rfl⟩ := h.there k ((hother k hkt).mp hk)
    exact ⟨x, hmem.mpr ⟨hx, hkt⟩, rfl⟩
  case received => exact h.received
  case outcomes => exact h.outcomes
  case lastTicket => exact h.lastTicket

/-- An entry that is not in flight leaves. -/
theorem Cargo.Sound.removeEntry (h : s.cargo.Sound flight) {ticket : Nat} (hnot : flight ≠ some ticket)
    (k : OutcomeKind) (p : Option Nat) : (s.removeEntry ticket k p).cargo.Sound flight :=
  (h.dropEntry (fun _ _ => .rfl) hnot).post ticket k p

theorem landed_other {ticket k : Nat} (hk : k ≠ ticket) : (none : Option Nat) = some k ↔ some ticket = some k :=
  ⟨nofun, fun h => absurd (Option.some.inj h).symm hk⟩

/-- The entry in flight leaves. -/
theorem Cargo.Sound.removeFlight {ticket : Nat} (h : s.cargo.Sound (some ticket)) (k : OutcomeKind) (p : Option Nat) :
    (s.removeEntry ticket k p).cargo.Sound none :=
  (h.dropEntry (fun _ => landed_other) nofun).post ticket k p

theorem entryOf_mem {ticket : Nat} {x : TxEntry} (h : s.entryOf ticket = some x) :
    x ∈ s.cargo.queue ∧ x.ticket = ticket :=
  ⟨List.mem_of_find?_eq_some h, by simpa using List.find?_some h⟩

/-- A reviewed entry keeps ticket, payload, attempts and marks, and owes no rename. -/
theorem reviewEntry_ok {prev : Option Roster} {cur : Roster} {x y : TxEntry} (h : reviewEntry prev cur x = .ok y) :
    ∃ d, y = { x with dest := d, renameOwed := false } := by
  unfold reviewEntry at h
  split at h
  · cases h
  · split at h
    · cases h
    · exact ⟨_, (Except.ok.inj h).symm⟩

/-! ## The rename pass, head candidates and the flush -/

theorem renameOne_sound {prev : Option Roster} {cur : Roster} {x : TxEntry} (h : s.cargo.Sound flight) (hx : x.Ok)
    (hflight : x.inFlight = true ↔ flight = some x.ticket) : (s.renameOne prev cur x).cargo.Sound flight := by
  unfold State.renameOne
  split
  case isTrue hf =>
    refine h.mapEntry (fun y hy hk => ?_) (fun _ _ => .rfl) fun hk => h.there _ hk
    obtain ⟨⟨h1, h2, h3, -⟩, hyf⟩ := h.entries y hy
    have hin : y.inFlight = true := hyf.mpr (by rw [hk]; exact hflight.mp hf)
    exact ⟨hk, ⟨h1, h2, h3, fun _ => hin⟩, by simp [hin, hflight.mp hf]⟩
  case isFalse hf =>
    have hnot : flight ≠ some x.ticket := fun hk => hf (hflight.mpr hk)
    split
    case h_1 z hz =>
      obtain ⟨d, rfl⟩ := reviewEntry_ok hz
      refine h.mapEntry (fun _ _ _ => ⟨rfl, ⟨hx.ticket, hx.attempts, hx.payload, fun hm => ?_⟩, hflight⟩)
        (fun _ _ => .rfl) fun hk => absurd hk hnot
      exact hx.marks (hm.imp id nofun)
    case h_2 => exact h.removeEntry hnot _ _

theorem renamePass_sound (h : s.cargo.Sound flight) : s.renamePass.cargo.Sound flight := by
  unfold State.renamePass
  split
  · exact h
  case h_2 cur _ =>
    have hfold (l : List TxEntry) (hl : ∀ x ∈ l, x.Ok ∧ (x.inFlight = true ↔ flight = some x.ticket)) (u : State)
        (hu : u.cargo.Sound flight) : (l.foldl (State.renameOne s.comp.previous cur) u).cargo.Sound flight := by
      induction l generalizing u with
      | nil => exact hu
      | cons x xs ih =>
        obtain ⟨hx, hf⟩ := hl x (List.mem_cons_self ..)
        exact ih (fun y hy => hl y (List.mem_cons_of_mem x hy)) _ (renameOne_sound hu hx hf)
    exact hfold s.cargo.queue h.entries s h

theorem chooseFrom_sound (cur : Roster) (l : List TxEntry) (hl : ∀ x ∈ l, flight ≠ some x.ticket)
    (h : s.cargo.Sound flight) : (State.chooseFrom cur l s).1.cargo.Sound flight := by
  induction l generalizing s with
  | nil => exact h
  | cons x xs ih =>
    unfold State.chooseFrom
    split
    · exact ih (fun y hy => hl y (List.mem_cons_of_mem x hy)) (h.removeEntry (hl x (List.mem_cons_self ..)) _ _)
    · exact h

theorem mem_choiceOrder {queue : List TxEntry} {x : TxEntry} (h : x ∈ choiceOrder queue) :
    x ∈ queue ∧ x.inFlight = false := by
  simp only [choiceOrder, List.mem_append, List.mem_filter, Bool.and_eq_true, Bool.not_eq_true'] at h
  obtain ⟨hx, -, hf⟩ | ⟨hx, -, hf⟩ := h <;> exact ⟨hx, hf⟩

theorem headCandidate_sound (h : s.cargo.Sound flight) : s.headCandidate.1.cargo.Sound flight := by
  unfold State.headCandidate
  split
  · split
    · refine chooseFrom_sound _ _ (fun x hx hk => ?_) h
      obtain ⟨hq, hf⟩ := mem_choiceOrder hx
      simp [(h.entries x hq).2.mpr hk] at hf
    · exact h
  · exact h

theorem flush_sound (h : s.cargo.Sound none) : s.flush.cargo.Sound none := by
  unfold State.flush
  have hfold (l : List TxEntry) (u : State) (hu : u.cargo.Sound none) :
      (l.foldl (fun t x => t.removeEntry x.ticket .flushed none) u).cargo.Sound none := by
    induction l generalizing u with
    | nil => exact hu
    | cons x xs ih => exact ih _ (hu.removeEntry nofun _ _)
  exact hfold _ s h

/-! ## The end of a flight -/

/-- An entry that has left flight and returns to its place. -/
theorem Cargo.Sound.land {ticket : Nat} (h : s.cargo.Sound (some ticket)) {y : TxEntry} (hticket : y.ticket = ticket)
    (hok : y.Ok) (hf : y.inFlight = false) : (s.mapEntry ticket fun _ => y).cargo.Sound none :=
  h.mapEntry (fun _ _ _ => ⟨hticket, hok, by simp [hf]⟩) (fun _ => landed_other) nofun

theorem returnEntry_sound {ticket : Nat} (h : s.cargo.Sound (some ticket)) :
    (s.returnEntry ticket).cargo.Sound none := by
  unfold State.returnEntry
  split
  case h_1 hnone =>
    obtain ⟨x, hx, hk⟩ := h.there ticket rfl
    simp only [State.entryOf, List.find?_eq_none, decide_eq_true_eq] at hnone
    exact absurd hk (hnone x hx)
  case h_2 x hx =>
    obtain ⟨hmem, hk⟩ := entryOf_mem hx
    obtain ⟨h1, h2, h3, -⟩ := (h.entries x hmem).1
    dsimp only
    split_ifs with hl hr
    · exact h.removeFlight _ _
    · have hl' : x.lapsed = false := by simpa using hl
      split
      · exact h.land hk ⟨h1, h2, h3, by simp [hl']⟩ rfl
      · split
        case h_1 z hz =>
          obtain ⟨d, rfl⟩ := reviewEntry_ok hz
          exact h.land hk ⟨h1, h2, h3, by simp [hl']⟩ rfl
        case h_2 => exact h.removeFlight _ _
    · exact h.land hk ⟨h1, h2, h3, by simp [hl, hr]⟩ rfl

theorem strikeEntry_sound {ticket : Nat} (h : s.cargo.Sound (some ticket)) :
    (s.strikeEntry ticket).cargo.Sound none := by
  unfold State.strikeEntry
  split
  case h_1 hnone =>
    obtain ⟨x, hx, hk⟩ := h.there ticket rfl
    simp only [State.entryOf, List.find?_eq_none, decide_eq_true_eq] at hnone
    exact absurd hk (hnone x hx)
  case h_2 x hx =>
    obtain ⟨hmem, hk⟩ := entryOf_mem hx
    split
    · exact h.removeFlight _ _
    case isFalse hlast =>
      refine returnEntry_sound (h.mapEntry (fun y hy hyk => ?_) (fun _ _ => .rfl) fun hk => h.there _ hk)
      have hyx : y = x := List.inj_on_of_nodup_map h.distinct hy hmem (hyk.trans hk.symm)
      subst hyx
      obtain ⟨⟨h1, h2, h3, h4⟩, hf⟩ := h.entries y hmem
      exact ⟨hk, ⟨h1, by simp at hlast ⊢; omega, h3, h4⟩, hk ▸ hf⟩

/-! ## The port's cargo commands and arrivals -/

theorem storeArrival_sound (x : RxEntry) (h : s.cargo.Sound flight) : (s.storeArrival x).cargo.Sound flight := by
  obtain ⟨h1, h2, h3, h4, h5, h6, h7⟩ := h
  unfold State.storeArrival
  split
  · exact ⟨h1, h2, h3, h4, by simp; omega, h6, h7⟩
  · exact ⟨h1, h2, h3, h4, h5, h6, h7⟩

theorem deliverCargo_sound (f : Frame) (h : s.cargo.Sound flight) : (s.deliverCargo f).cargo.Sound flight := by
  unfold State.deliverCargo
  split
  · exact h
  · split
    · exact h
    · dsimp only
      split_ifs
      all_goals first | exact storeArrival_sound _ h | exact h

/-- The next ticket lies in 1..255, and with at most 24 entries held no entry holds it. -/
theorem nextTicket_ok {last : Nat} {held : List Nat} (hlen : held.length ≤ 24) :
    1 ≤ nextTicket last held ∧ nextTicket last held ≤ 255 ∧ nextTicket last held ∉ held := by
  obtain ⟨x, hx, hfree⟩ : ∃ x ∈ (List.range 255).map (fun i => (last + i) % 255 + 1), x ∉ held := by
    by_contra hall
    have hsub : (List.range 255).map (fun i => (last + i) % 255 + 1) ⊆ held := by
      intro x hx
      by_contra hne
      exact hall ⟨x, hx, hne⟩
    have hnodup : ((List.range 255).map fun i => (last + i) % 255 + 1).Nodup := by
      refine List.Nodup.map_on (fun i hi j hj hij => ?_) List.nodup_range
      rw [List.mem_range] at hi hj
      omega
    have hle := (hnodup.subperm hsub).length_le
    simp only [List.length_map, List.length_range] at hle
    omega
  unfold nextTicket
  cases hfind : ((List.range 255).map fun i => (last + i) % 255 + 1).find? (fun t => !held.contains t) with
  | none =>
    have := List.find?_eq_none.mp hfind x hx
    simp [hfree] at this
  | some y =>
    have hy := List.mem_of_find?_eq_some hfind
    have hnot := List.find?_some hfind
    obtain ⟨i, -, rfl⟩ := List.mem_map.mp hy
    refine ⟨by simp, ?_, ?_⟩
    · simp only [Option.getD_some]
      omega
    · simpa using hnot

theorem enqueue_sound {d : Dest} {urgent : Bool} {lifetime : Nat} {payload : List Byte} (h : s.cargo.Sound flight)
    (hroom : s.cargo.queue.length < 24) (hpayload : 1 ≤ payload.length ∧ payload.length ≤ 128) :
    (s.enqueue d urgent lifetime payload).1.cargo.Sound flight := by
  obtain ⟨hlow, hhigh, hfree⟩ := nextTicket_ok (last := s.cargo.lastTicket) (held := s.cargo.queue.map TxEntry.ticket)
    (by rw [List.length_map]; omega)
  unfold State.enqueue
  dsimp only [State.done, State.setCargo_cargo]
  generalize nextTicket s.cargo.lastTicket (s.cargo.queue.map TxEntry.ticket) = ticket at hlow hhigh hfree ⊢
  constructor
  case length => simp; omega
  case distinct =>
    simp only [List.map_append, List.map_cons, List.map_nil, List.nodup_append]
    refine ⟨h.distinct, by simp, ?_⟩
    rintro a ha b hb rfl
    exact hfree (List.mem_singleton.mp hb ▸ ha)
  case entries =>
    intro x hx
    obtain hx | hx := List.mem_append.mp hx
    · exact h.entries x hx
    · obtain rfl := List.mem_singleton.mp hx
      refine ⟨⟨⟨hlow, hhigh⟩, Nat.zero_lt_succ 2, hpayload, by simp⟩, ⟨nofun, fun hk => ?_⟩⟩
      obtain ⟨y, hy, hyk⟩ := h.there _ hk
      exact absurd (List.mem_map.mpr ⟨y, hy, hyk⟩) hfree
  case there =>
    intro k hk
    obtain ⟨x, hx, hxk⟩ := h.there k hk
    exact ⟨x, List.mem_append_left _ hx, hxk⟩
  case received => exact h.received
  case outcomes => exact h.outcomes
  case lastTicket => exact ⟨hlow, hhigh⟩

end Sys2Proof.Machine
end

section
/-! The queues and the flight through every step (R125, R127, R130, R131, R143, R145), and the gate through which a
flight begins (R63, R129). -/

namespace Sys2Proof.Machine

variable {s t : State}

/-! ## Changes that leave the flight -/

/-- A change that leaves the flight as it is and keeps the queues sound beside it. -/
structure Carries (s t : State) : Prop where
  flight : t.flight = s.flight
  sound  : s.cargo.Sound s.flight → t.cargo.Sound s.flight

theorem Carries.refl (s : State) : Carries s s := ⟨rfl, id⟩

theorem Carries.trans {u : State} (h : Carries s t) (h' : Carries t u) : Carries s u :=
  ⟨h'.flight.trans h.flight, fun hs => h.flight ▸ h'.sound (h.flight.symm ▸ h.sound hs)⟩

theorem Carries.keeps (h : Carries s t) (hs : s.cargo.Sound s.flight) : t.cargo.Sound t.flight :=
  h.flight ▸ h.sound hs

theorem flight_congr (h : t.bus.tx = s.bus.tx) : t.flight = s.flight := by simp only [State.flight, h]

/-- A change of neither transmission nor cargo. -/
theorem Carries.of_eq (htx : t.bus.tx = s.bus.tx) (hcargo : t.cargo = s.cargo) : Carries s t :=
  ⟨flight_congr htx, fun h => hcargo ▸ h⟩

theorem EngineStep.flight (h : EngineStep s t) : t.flight = s.flight := flight_congr (by rw [h.bus])

/-- A change of the cargo router that keeps the queues sound whatever is in flight. -/
theorem CargoStep.carries (h : CargoStep s t) (hs : ∀ f, s.cargo.Sound f → t.cargo.Sound f) : Carries s t :=
  ⟨h.engine.flight, hs _⟩

theorem adopt_sound (limp : Bool) (r : Roster) (s : State) (f : Option Nat) (h : s.cargo.Sound f) :
    (s.adopt limp r).cargo.Sound f := by
  unfold State.adopt
  simp only [State.notify_cargo, State.notifyIf_cargo, State.setComp_cargo, State.setBus_cargo]
  exact renamePass_sound h

theorem EngineOp.carries (h : EngineOp s t) : Carries s t := by
  refine ⟨h.engineStep.flight, ?_⟩
  cases h with
  | mark | table | append | offer | place | count | handIn => exact id
  | newEpoch e => intro hs; rw [changeEpoch_rest]; exact hs
  | settle r => exact adopt_sound false r s _
  | limp => exact adopt_sound true _ s _

theorem EngineOps.carries (h : EngineOps s t) : Carries s t := by
  induction h with
  | refl => exact .refl s
  | tail _ h ih => exact ih.trans h.carries

theorem advanceTo_carries (d : Ticks) (s : State) : Carries s (s.advanceTo d) := .of_eq rfl rfl

theorem notify_carries (n : Notice) (s : State) : Carries s (s.notify n) := .of_eq rfl rfl

theorem changeEpoch_cargo (e : Epoch) (s : State) : (s.changeEpoch e).cargo = s.cargo := by rw [changeEpoch_rest]

/-- A trigger in any composition state. -/
theorem trigger_carries (r : Reason) (s : State) : Carries s (s.trigger r) := by
  refine ⟨(trigger_engineStep r s).flight, fun h => ?_⟩
  have hcargo : (s.trigger r).cargo = s.cargo := by
    unfold State.trigger
    split
    · split
      · exact changeEpoch_cargo _ (s.recordReason r)
      · rfl
    · rfl
    · split
      · rfl
      · exact changeEpoch_cargo _ (s.recordReason r)
    all_goals exact changeEpoch_cargo _ (s.recordReason r)
  rw [hcargo]
  exact h

/-! ## The bus controller -/

theorem deliverCargo_carries (f : Frame) (s : State) : Carries s (s.deliverCargo f) :=
  (deliverCargo_cargoStep f s).carries fun _ => deliverCargo_sound f

theorem select_carries (s : State) : Carries s s.select.1 := by
  refine (select_cargoStep s).carries fun f h => ?_
  unfold State.select
  split
  · exact h
  · split
    · exact h
    · exact headCandidate_sound h

theorem stop_carries (htx : s.bus.tx = none) : Carries s s.stop := by
  obtain ⟨counters, hbus⟩ := stop_bus s
  refine ⟨flight_congr (by rw [hbus]), fun h => ?_⟩
  have hflight : s.flight = none := by simp [State.flight, htx]
  rw [hflight] at h ⊢
  exact flush_sound h

theorem clash_carries (htx : s.bus.tx = none) : Carries s s.clash := by
  unfold State.clash
  split
  · exact .refl s
  · split
    · exact stop_carries htx
    · exact (Carries.of_eq (by rfl) (by rfl)).trans (trigger_carries _ _)

theorem deliver_carries (f : Frame) (htx : s.bus.tx = none) : Carries s (s.deliver f) := by
  unfold State.deliver
  split
  · exact clash_carries htx
  · split
    · exact (deliverComp_ops f s).carries
    · exact deliverCargo_carries f s

theorem takeReception_carries (r : RxResult) (htx : s.bus.tx = none) : Carries s (s.takeReception r) := by
  unfold State.takeReception
  split
  · exact .of_eq rfl rfl
  · exact .of_eq rfl rfl
  · exact .of_eq rfl rfl
  · exact (Carries.of_eq (by rfl) (by rfl)).trans (deliver_carries (s := s.endReception) _ htx)

theorem receive_carries (r : Rx) (bits : List Bool) (htx : s.bus.tx = none) : Carries s (s.receive r bits) :=
  (Carries.of_eq (by rfl) (by rfl)).trans (takeReception_carries (s := s.idleIn _) _ htx)

theorem idleReception_carries (htx : s.bus.tx = none) : Carries s s.idleReception := by
  unfold State.idleReception
  split
  · exact takeReception_carries _ htx
  · exact .refl s

theorem awaitIdle_carries (f : Frame) (k : Nat) (s : State) : Carries s (s.awaitIdle f k) := by
  unfold State.awaitIdle
  split <;> exact .of_eq rfl rfl

theorem restOrStop_carries (htx : s.bus.tx = none) : Carries s s.restOrStop := by
  unfold State.restOrStop
  split
  · exact stop_carries htx
  · exact .of_eq rfl rfl

/-! ## The start of a frame -/

/-- A composition frame starts no flight, and a cargo frame one of an entry that waits. -/
theorem startFrame_sound (x : Selection) (hf : s.flight = none) (h : s.cargo.Sound none) :
    (s.startFrame x).cargo.Sound (s.startFrame x).flight := by
  unfold State.startFrame
  split
  · split
    · exact h
    · rw [hf]; exact h
  case h_2 ticket =>
    split
    case h_1 y cur hy _ =>
      obtain ⟨hmem, hk⟩ := entryOf_mem hy
      refine Cargo.Sound.mapEntry (flight' := some ticket) h (fun z hz hzk => ?_) (fun k hkt => ?_) fun _ => ⟨y, hmem, hk⟩
      · obtain ⟨⟨h1, h2, h3, -⟩, -⟩ := h.entries z hz
        exact ⟨hzk, ⟨h1, h2, h3, fun _ => rfl⟩, by simp⟩
      · exact ⟨fun he => absurd (Option.some.inj he).symm hkt, nofun⟩
    case h_2 => rw [hf]; exact h

theorem atIdle_sound (hf : s.flight = none) (h : s.cargo.Sound none) : s.atIdle.cargo.Sound s.atIdle.flight := by
  have hselect := select_carries s
  have hflight : s.select.1.flight = none := hselect.flight.trans hf
  have hsound : s.select.1.cargo.Sound none := hf ▸ hselect.sound (hf.symm ▸ h)
  unfold State.atIdle
  dsimp only
  split
  · show s.select.1.cargo.Sound s.select.1.flight
    rw [hflight]; exact hsound
  · split
    · exact startFrame_sound _ hflight hsound
    · show s.select.1.cargo.Sound s.select.1.flight
      rw [hflight]; exact hsound

/-- What waits in the slot starts no flight. -/
theorem sendWaiting_carries (hf : s.flight = none) : Carries s s.sendWaiting := by
  unfold State.sendWaiting
  split
  case isTrue hslot =>
    obtain ⟨f, hfs⟩ := Option.isSome_iff_exists.mp hslot.2
    unfold State.atIdle
    simp only [State.select, hfs]
    split
    · refine ⟨?_, ?_⟩
      · simp only [State.startFrame, hfs]
        exact hf.symm
      · simp only [State.startFrame, hfs]
        exact id
    · exact .of_eq rfl rfl
  case isFalse => exact .refl s

/-- On an idle bus nothing is in flight. -/
theorem Modes.flight_of_idle (h : Modes s) (hi : s.bus.idle = true) : s.flight = none := by
  have hctrl := (h.idleBus hi).2.2
  have htx : s.bus.tx = none := by
    by_contra hne
    have := h.txIff.mp (Option.isSome_iff_ne_none.mpr hne)
    obtain hc | hc | hc := hctrl <;> simp [hc] at this
  simp [State.flight, htx]

theorem Modes.sendWaiting_carries (h : Modes s) : Carries s s.sendWaiting := by
  by_cases hi : s.bus.idle = true
  · exact Machine.sendWaiting_carries (h.flight_of_idle hi)
  · unfold State.sendWaiting
    rw [if_neg fun hc => hi hc.1]
    exact .refl s

theorem Modes.tx_of_rx (h : Modes s) (hrx : s.bus.rx.isSome) : s.bus.tx = none := (h.rx_ctrl hrx).tx

/-! ## The ends of a flight -/

/-- The owner takes back what the station has stopped sending. -/
theorem giveBack_sound {o : Origin} {f : Frame} (htx : s.bus.tx = some ⟨f, o⟩) (h : s.cargo.Sound s.flight) :
    (s.stopDriving.giveBack o).cargo.Sound none := by
  unfold State.giveBack
  split
  · have hf : s.flight = none := by simp [State.flight, htx]
    rw [hf] at h
    rw [show (s.stopDriving.handBack _).cargo = s.cargo by unfold State.handBack; split <;> rfl]
    exact h
  case h_2 ticket p =>
    have hf : s.flight = some ticket := by simp [State.flight, htx]
    exact returnEntry_sound (s := s.stopDriving) (hf ▸ h)

theorem giveBackStruck_sound {o : Origin} {f : Frame} (htx : s.bus.tx = some ⟨f, o⟩) (h : s.cargo.Sound s.flight) :
    (s.stopDriving.countStrike.giveBackStruck o).cargo.Sound none := by
  unfold State.giveBackStruck
  split
  · have hf : s.flight = none := by simp [State.flight, htx]
    rw [hf] at h
    rw [show (s.stopDriving.countStrike.handBack _).cargo = s.cargo by unfold State.handBack; split <;> rfl]
    exact h
  case h_2 ticket p =>
    have hf : s.flight = some ticket := by simp [State.flight, htx]
    exact strikeEntry_sound (s := s.stopDriving.countStrike) (hf ▸ h)

theorem giveBack_tx (o : Origin) (s : State) : (s.stopDriving.giveBack o).bus.tx = none := by
  rw [(giveBack_engineStep o s.stopDriving).bus]
  rfl

theorem giveBackStruck_tx (o : Origin) (s : State) : (s.stopDriving.countStrike.giveBackStruck o).bus.tx = none := by
  rw [(giveBackStruck_engineStep o s.stopDriving.countStrike).bus]
  rfl

theorem flight_of_tx (h : s.bus.tx = none) : s.flight = none := by simp [State.flight, h]

theorem tx_congr_of_carries (h : Carries s t) (hs : s.cargo.Sound none) (hf : s.flight = none) :
    t.cargo.Sound t.flight := h.keeps (hf.symm ▸ hs)

theorem struck_tx (o : Origin) (s : State) : (s.struck o).bus.tx = none := by
  have hnone := giveBackStruck_tx o s
  unfold State.struck
  dsimp only
  split
  · unfold State.restOrStop
    split
    · obtain ⟨counters, hbus⟩ := stop_bus (s.stopDriving.countStrike.giveBackStruck o)
      rw [hbus]
      exact hnone
    · exact hnone
  · exact hnone

theorem struck_sound {o : Origin} {f : Frame} (htx : s.bus.tx = some ⟨f, o⟩) (h : s.cargo.Sound s.flight) :
    (s.struck o).cargo.Sound none := by
  have hsound := giveBackStruck_sound htx h
  have hnone := giveBackStruck_tx o s
  unfold State.struck
  dsimp only
  split
  · have hcarries := (restOrStop_carries hnone).sound ((flight_of_tx hnone).symm ▸ hsound)
    rwa [flight_of_tx hnone] at hcarries
  · exact hsound

theorem reportCompletion_sound {o : Origin} {f : Frame} (htx : s.bus.tx = some ⟨f, o⟩) (h : s.cargo.Sound s.flight) :
    ((s.completeOwn f).reportCompletion o).cargo.Sound ((s.completeOwn f).reportCompletion o).flight := by
  have hnone : (s.completeOwn f).bus.tx = none := rfl
  have hcomp (hf : s.flight = none) : (s.completeOwn f).cargo.Sound (s.completeOwn f).flight := by
    rw [flight_of_tx hnone, ← hf]
    exact h
  rw [(reportCompletion_engineStep o (s.completeOwn f)).flight]
  unfold State.reportCompletion
  split
  case h_1 g =>
    exact (offerSent_ops g.epoch (s.completeOwn f)).carries.sound (hcomp (by simp [State.flight, htx]))
  case h_4 ticket p =>
    have hf : s.flight = some ticket := by simp [State.flight, htx]
    rw [flight_of_tx hnone]
    exact Cargo.Sound.removeFlight (s := s.completeOwn f) (hf ▸ h) _ _
  all_goals exact hcomp (by simp [State.flight, htx])

end Sys2Proof.Machine
end

section
/-! Every command and event keeps queues and flight sound, and cargo starts through an open gate alone. -/

namespace Sys2Proof.Machine

variable {s t : State}

/-! ## The chain units and the local port -/

theorem setChain_carries (e : End) (u : ChainUnit) (s : State) : Carries s (s.setChain e u) := by
  cases e <;> exact .of_eq rfl rfl

theorem syncDrive_carries (e : End) (s : State) : Carries s (s.syncDrive e) :=
  .of_eq (by rw [syncDrive_bus]) (syncDrive_cargo e s)

theorem notifyIf_carries (b : Bool) (n : Notice) (s : State) : Carries s (s.notifyIf b n) :=
  .of_eq (by rw [State.notifyIf_bus]) (State.notifyIf_cargo s b n)

theorem chainChanged_carries (e : End) (before : Triple) (s : State) : Carries s (s.chainChanged e before) := by
  unfold State.chainChanged
  dsimp only
  split
  · exact .refl s
  · exact (((setChain_carries _ _ s).trans (notify_carries _ _)).trans (notifyIf_carries _ _ _)).trans
      (trigger_carries _ _)

theorem changeUnit_carries (e : End) (f : ChainUnit → ChainUnit) (s : State) : Carries s (s.changeUnit e f) :=
  (((setChain_carries e _ s).trans (syncDrive_carries e _)).trans (notifyIf_carries _ _ _)).trans
    (chainChanged_carries e _ _)

theorem decoderEvent_carries (e : End) (f : Decoder → Decoder) (d : Ticks) (s : State) :
    Carries s ((s.advanceTo d).decoderEvent e f) := by
  refine (advanceTo_carries d s).trans ?_
  unfold State.decoderEvent
  split
  · exact changeUnit_carries e _ _
  · exact .refl _

theorem csnFalls_carries (s : State) : Carries s s.csnFalls := by
  obtain h | ⟨p, -, h⟩ := csnFalls_cases s <;> rw [h]
  · exact .refl s
  · exact .of_eq rfl rfl

theorem transfer_carries (x : Transfer) {run : List Bool → State → State} (h : ∀ bits, Carries s (run bits s)) :
    Carries s (s.transfer x run) := by
  unfold State.transfer
  split
  · exact csnFalls_carries s
  · split
    · exact h _
    · exact .refl s
  · split
    · exact .of_eq rfl rfl
    · exact .refl s

theorem takeCommand_carries (x : Transfer) {run : List Byte → State → State × List Byte}
    (h : ∀ p u, Carries u (run p u).1) : Carries s (s.takeCommand x run) :=
  takeCommand_keeps (P := Carries s) x (fun _ _ _ hu => hu.trans (.of_eq rfl rfl)) (fun p u hu => hu.trans (h p u))
    (.refl s)

theorem releasedAtStart_carries (e : End) (s : State) : Carries s (s.releasedAtStart e) := by
  unfold State.releasedAtStart
  split
  · exact chainChanged_carries _ _ s
  · exact .refl s

theorem begin_carries (s : State) : Carries s s.begin := by
  rw [begin_eq]
  refine .trans (.trans (.trans ?_ (trigger_carries _ _)) (releasedAtStart_carries _ _)) (releasedAtStart_carries _ _)
  apply Carries.of_eq <;> simp [State.unitsBegun, Bus.listen]

theorem startCommand_carries (p : List Byte) (s : State) : Carries s (s.startCommand p).1 := by
  unfold State.startCommand
  split_ifs
  · exact .refl s
  · exact .refl s
  · exact begin_carries s

theorem configure_carries (p : List Byte) (s : State) : Carries s (s.configure p).1 := by
  obtain hc | ⟨-, i, mask, hc, -⟩ := configure_cases p s <;> rw [hc]
  · exact .refl s
  · exact .of_eq rfl rfl

theorem setCab_carries (x : CabSetting) (s : State) : Carries s (s.setCab x) := by
  unfold State.setCab
  split
  · exact .refl s
  · refine Carries.trans (t := s.setPort { s.port with cab := x }) (.of_eq rfl rfl) (trigger_carries _ _)

theorem setCabCommand_carries (p : List Byte) (s : State) : Carries s (s.setCabCommand p).1 := by
  unfold State.setCabCommand
  split
  · split
    · split
      · split
        · exact setCab_carries _ s
        · exact .refl s
      · exact .refl s
    · exact .refl s
  · exact .refl s

theorem isolate_carries (e : End) (on : Bool) (s : State) : Carries s (s.isolate e on) := changeUnit_carries e _ s

theorem isolateCommand_carries (p : List Byte) (s : State) : Carries s (s.isolateCommand p).1 := by
  unfold State.isolateCommand
  split
  · split
    · split
      · exact .refl s
      · split
        · exact isolate_carries _ _ s
        · split
          · exact isolate_carries _ _ s
          · exact .refl s
    · exact .refl s
  · exact .refl s

theorem recomposeCommand_carries (p : List Byte) (s : State) : Carries s (s.recomposeCommand p).1 := by
  unfold State.recomposeCommand
  split
  · exact trigger_carries _ s
  · exact .refl s

theorem submitCommand_carries (p : List Byte) (s : State) : Carries s (s.submitCommand p).1 := by
  refine (submitCommand_cargoStep p s).carries fun f h => ?_
  unfold State.submitCommand
  split
  · split
    case h_1 mode v0 v1 v2 v3 urgency lifetime len rest =>
      split
      case isTrue => exact h
      case isFalse hneeds =>
        unfold State.submitChecks
        split
        · exact h
        · split_ifs with hurgency hlen hfull
          · exact h
          · exact h
          · exact h
          · refine enqueue_sound h (Nat.lt_of_not_le hfull) ?_
            have hmax : s.submitMax ≤ 128 := by
              have hbytes (m : PayloadMax) : m.bytes ≤ 128 := by cases m <;> decide
              unfold State.submitMax
              split
              · exact (Nat.min_le_left _ _).trans (hbytes _)
              · exact hbytes _
            simp only [submitNeeds] at hneeds
            rw [List.length_take]
            split_ifs at hneeds <;> omega
    case h_2 => exact h
  · exact h

theorem withdrawCommand_carries (p : List Byte) (s : State) : Carries s (s.withdrawCommand p).1 := by
  refine (withdrawCommand_cargoStep p s).engine.flight |> fun hf => ⟨hf, fun h => ?_⟩
  unfold State.withdrawCommand
  split
  · split
    case h_1 b _ =>
      unfold State.withdrawTicket
      split
      case h_1 => exact h
      case h_2 x hx =>
        split
        case isTrue => exact h
        case isFalse hnot =>
          obtain ⟨hmem, hk⟩ := entryOf_mem hx
          exact h.removeEntry (fun hf => hnot ((h.entries x hmem).2.mpr (hk ▸ hf))) _ _
    case h_2 => exact h
  · exact h

theorem takeArrival_carries (p : List Byte) (s : State) : Carries s (s.takeArrival p).1 := by
  refine (takeArrival_cargoStep p s).carries fun f h => ?_
  unfold State.takeArrival
  split
  · split
    · exact h
    case h_2 x xs hr =>
      obtain ⟨h1, h2, h3, h4, h5, h6, h7⟩ := h
      rw [hr, List.length_cons] at h5
      exact ⟨h1, h2, h3, h4, by simp [State.done]; omega, h6, h7⟩
  · exact h

theorem readOutcomesCommand_carries (p : List Byte) (s : State) : Carries s (s.readOutcomesCommand p).1 := by
  refine (readOutcomesCommand_cargoStep p s).carries fun f h => ?_
  unfold State.readOutcomesCommand
  split
  · split
    · exact h
    · obtain ⟨h1, h2, h3, h4, h5, h6, h7⟩ := h
      exact ⟨h1, h2, h3, h4, h5, by simp [State.done]; omega, h7⟩
  · exact h

theorem readRosterCommand_carries (p : List Byte) (s : State) : Carries s (s.readRosterCommand p).1 := by
  rw [readRosterCommand_fst]
  exact .refl s

/-! ## Events -/

theorem execFrameReceived_carries (bits : List Bool) (hm : Modes s) (h : execFrameReceived bits s = .next t) :
    Carries s t := by
  unfold execFrameReceived at h
  split at h <;> obtain rfl := Host.Outcome.next.inj h
  case h_1 r hrx => exact receive_carries _ _ (hm.tx_of_rx (by simp [hrx]))
  case h_2 => exact .refl s

theorem execStartBitSeen_carries (h : execStartBitSeen s = .next t) : Carries s t := by
  unfold execStartBitSeen at h
  split at h
  · split at h <;> obtain rfl := Host.Outcome.next.inj h <;> exact .of_eq rfl rfl
  · obtain rfl := Host.Outcome.next.inj h
    exact .refl s

theorem execRestTimerExpiry_carries (h : execRestTimerExpiry s = .next t) : Carries s t := by
  unfold execRestTimerExpiry at h
  split at h
  · obtain rfl := Host.Outcome.next.inj h
    exact .refl s
  · split at h <;> obtain rfl := Host.Outcome.next.inj h
    · exact .of_eq rfl rfl
    · exact .refl s

theorem execPeriodBoundary_carries (e : End) (h : execPeriodBoundary e s = .next t) : Carries s t := by
  unfold execPeriodBoundary at h
  dsimp only at h
  split at h <;> obtain rfl := Host.Outcome.next.inj h
  · exact .refl s
  · exact (advanceTo_carries _ s).trans (setChain_carries _ _ _)

theorem execCompletedPeriod_carries (e : End) (p m : Nat) (h : execCompletedPeriod e p m s = .next t) :
    Carries s t := by
  unfold execCompletedPeriod at h
  split at h <;> obtain rfl := Host.Outcome.next.inj h
  · exact decoderEvent_carries e _ _ s
  · exact .refl s

theorem execLoss_carries (e : End) (h : execLoss e s = .next t) : Carries s t := by
  unfold execLoss at h
  split at h <;> obtain rfl := Host.Outcome.next.inj h
  · exact decoderEvent_carries e _ _ s
  · exact .refl s

theorem execPartingSensed_carries (e : End) (h : execPartingSensed e s = .next t) : Carries s t := by
  unfold execPartingSensed at h
  split at h <;> obtain rfl := Host.Outcome.next.inj h
  · exact decoderEvent_carries e _ _ s
  · exact .refl s

theorem execStuckHigh_carries (e : End) (h : execStuckHigh e s = .next t) : Carries s t := by
  unfold execStuckHigh at h
  split at h
  · obtain rfl := Host.Outcome.next.inj h
    exact .refl s
  · split at h <;> obtain rfl := Host.Outcome.next.inj h
    · exact decoderEvent_carries e _ _ s
    · exact .refl s

/-- A timer of the engine: changes of the engine, and a frame they may have handed in that is sent. -/
theorem Modes.timer_carries {u : State} (hm : Modes s) (d : Ticks) (hops : EngineOps (s.advanceTo d) u) :
    Carries s u.sendWaiting :=
  ((advanceTo_carries d s).trans hops.carries).trans ((hm.advanceTo d).engineOps hops).sendWaiting_carries

theorem execQuietHoldEnd_carries (hm : Modes s) (h : execQuietHoldEnd s = .next t) : Carries s t := by
  unfold execQuietHoldEnd at h
  split at h
  · obtain rfl := Host.Outcome.next.inj h
    exact .refl s
  · split at h <;> obtain rfl := Host.Outcome.next.inj h
    case isTrue hq => exact hm.timer_carries _ (enterOffer_ops (by simp [State.live, hq]))
    case isFalse => exact .refl s

theorem execCadenceTimer_carries (hm : Modes s) (h : execCadenceTimer s = .next t) : Carries s t := by
  unfold execCadenceTimer at h
  split at h
  · obtain rfl := Host.Outcome.next.inj h
    exact .refl s
  · split at h
    case isTrue ho =>
      obtain rfl := Host.Outcome.next.inj h
      refine hm.timer_carries _ ((restartCadence_outside_mark _).trans (buildOffer_ops ?_))
      simp [State.restartCadence, State.live, ho]
    case isFalse =>
      split at h <;> obtain rfl := Host.Outcome.next.inj h
      case isTrue hc => exact hm.timer_carries _ (ownConfirm_ops (by simp [State.live, hc]))
      case isFalse => exact .refl s

theorem execLastEntryTimeout_carries (hm : Modes s) (h : execLastEntryTimeout s = .next t) : Carries s t := by
  unfold execLastEntryTimeout at h
  split at h
  · obtain rfl := Host.Outcome.next.inj h
    exact .refl s
  · split at h <;> obtain rfl := Host.Outcome.next.inj h
    · exact hm.timer_carries _ (tryPlacement_ops _)
    · exact .refl s

theorem execRoundDeadline_carries (h : execRoundDeadline s = .next t) : Carries s t := by
  unfold execRoundDeadline at h
  split at h
  · obtain rfl := Host.Outcome.next.inj h
    exact .refl s
  · split at h <;> obtain rfl := Host.Outcome.next.inj h
    case isTrue hr =>
      exact (advanceTo_carries _ s).trans
        (roundFailed_ops (s := s.advanceTo _) (live_of_roundRunning hr)).carries
    case isFalse => exact .refl s

theorem execLimpRetry_carries (h : execLimpRetry s = .next t) : Carries s t := by
  unfold execLimpRetry at h
  split at h
  · split at h <;> obtain rfl := Host.Outcome.next.inj h
    · exact (advanceTo_carries _ s).trans (retry_ops _).carries
    · exact .refl s
  · split at h <;> obtain rfl := Host.Outcome.next.inj h
    · exact (retry_ops s).carries
    · exact .refl s

theorem execPresenceSchedulePoint_carries (hm : Modes s) (h : execPresenceSchedulePoint s = .next t) :
    Carries s t := by
  unfold execPresenceSchedulePoint at h
  split at h
  · split at h <;> obtain rfl := Host.Outcome.next.inj h
    case isTrue hd => exact hm.timer_carries _ (buildPresence_ops (s := s.advanceTo _) _ _ (live_of_gateOpen hd))
    case isFalse => exact .refl s
  · obtain rfl := Host.Outcome.next.inj h
    exact .refl s

theorem execMemberLost_carries (id : Identity) (h : execMemberLost id s = .next t) : Carries s t := by
  unfold execMemberLost at h
  split at h
  · obtain rfl := Host.Outcome.next.inj h
    exact .refl s
  · split at h <;> obtain rfl := Host.Outcome.next.inj h
    · exact ((advanceTo_carries _ s).trans (setAside_ops _ _).carries).trans (trigger_carries _ _)
    · exact .refl s

theorem execWindowEnd_carries (h : execWindowEnd s = .next t) : Carries s t := by
  unfold execWindowEnd at h
  split at h
  · obtain rfl := Host.Outcome.next.inj h
    exact .refl s
  · dsimp only at h
    have hended (d : Ticks) : Carries s ((s.advanceTo d).setGrade (s.grade.endWindow d)) := .of_eq rfl rfl
    split at h <;> obtain rfl := Host.Outcome.next.inj h
    · exact hended _
    · exact ((hended _).trans (notify_carries _ _)).trans (trigger_carries _ _)

/-- An entry in flight is marked lapsed, and one that waits leaves. -/
theorem execLifetimeExpiry_carries (ticket : Nat) (h : execLifetimeExpiry ticket s = .next t) : Carries s t := by
  unfold execLifetimeExpiry at h
  split at h
  · obtain rfl := Host.Outcome.next.inj h
    exact .refl s
  case h_2 x hx =>
    obtain ⟨hmem, hk⟩ := entryOf_mem hx
    split at h
    · obtain rfl := Host.Outcome.next.inj h
      exact .refl s
    case h_2 d _ =>
      split at h <;> obtain rfl := Host.Outcome.next.inj h
      case isTrue hf =>
        refine ⟨rfl, fun hs => Cargo.Sound.mapEntry (s := s.advanceTo d) hs (fun y hy hyk => ?_) (fun _ _ => .rfl)
          fun _ => ⟨x, hmem, hk⟩⟩
        have hyx : y = x := List.inj_on_of_nodup_map hs.distinct hy hmem (hyk.trans hk.symm)
        subst hyx
        obtain ⟨⟨h1, h2, h3, -⟩, hflight⟩ := hs.entries y hmem
        exact ⟨hk, ⟨h1, h2, h3, fun _ => hf⟩, hk ▸ hflight⟩
      case isFalse hf =>
        refine ⟨(removeEntry_cargoStep _ _ _ (s.advanceTo d)).engine.flight, fun hs => ?_⟩
        exact Cargo.Sound.removeEntry (s := s.advanceTo d) hs
          (fun hflight => hf ((hs.entries x hmem).2.mpr (hk ▸ hflight))) _ _

/-! ## All commands and events -/

/-- The events in which a flight can begin or end. -/
def Flies : Instr → Prop
  | .busIdle | .intermissionPassed | .lostArbitration _ | .dominantReadRecessive _ | .strike _ | .cleanCompletion
  | .restart _ | .hardwareReset _ => True
  | _ => False

theorem exec_carries {c : Instr} (hc : ¬Flies c) (hm : Modes s) (h : exec c s = .next t) : Carries s t := by
  cases c with
  | busIdle | intermissionPassed | lostArbitration | dominantReadRecessive | strike | cleanCompletion | restart
  | hardwareReset => exact absurd trivial hc
  | configure x => exact Host.Outcome.next.inj h ▸ takeCommand_carries x configure_carries
  | start x => exact Host.Outcome.next.inj h ▸ takeCommand_carries x startCommand_carries
  | setCab x => exact Host.Outcome.next.inj h ▸ takeCommand_carries x setCabCommand_carries
  | isolate x => exact Host.Outcome.next.inj h ▸ takeCommand_carries x isolateCommand_carries
  | recompose x => exact Host.Outcome.next.inj h ▸ takeCommand_carries x recomposeCommand_carries
  | submit x => exact Host.Outcome.next.inj h ▸ takeCommand_carries x submitCommand_carries
  | withdraw x => exact Host.Outcome.next.inj h ▸ takeCommand_carries x withdrawCommand_carries
  | take x => exact Host.Outcome.next.inj h ▸ takeCommand_carries x takeArrival_carries
  | readOutcomes x => exact Host.Outcome.next.inj h ▸ takeCommand_carries x readOutcomesCommand_carries
  | readRoster x => exact Host.Outcome.next.inj h ▸ takeCommand_carries x readRosterCommand_carries
  | readState x => exact Host.Outcome.next.inj h ▸ takeCommand_carries x fun _ u => .refl u
  | readEvents x => exact Host.Outcome.next.inj h ▸ takeCommand_carries x fun _ _ => .of_eq rfl rfl
  | readAnswer x => exact Host.Outcome.next.inj h ▸ transfer_carries x fun _ => .of_eq rfl rfl
  | commandOverrun x =>
    refine Host.Outcome.next.inj h ▸ transfer_carries x fun bits => ?_
    split
    · exact .of_eq rfl rfl
    · exact .refl s
  | answerReady =>
    obtain rfl := Host.Outcome.next.inj h
    split
    · exact .of_eq rfl rfl
    · exact .refl s
  | periodBoundary e => exact execPeriodBoundary_carries e h
  | completedPeriod e p k => exact execCompletedPeriod_carries e p k h
  | loss e => exact execLoss_carries e h
  | partingSensed e => exact execPartingSensed_carries e h
  | stuckHigh e => exact execStuckHigh_carries e h
  | releaseAsserted e => exact Host.Outcome.next.inj h ▸ changeUnit_carries e _ s
  | releaseDeasserted e => exact Host.Outcome.next.inj h ▸ changeUnit_carries e _ s
  | frameReceived bits => exact execFrameReceived_carries bits hm h
  | restTimerExpiry => exact execRestTimerExpiry_carries h
  | quietHoldEnd => exact execQuietHoldEnd_carries hm h
  | cadenceTimer => exact execCadenceTimer_carries hm h
  | lastEntryTimeout => exact execLastEntryTimeout_carries hm h
  | roundDeadline => exact execRoundDeadline_carries h
  | limpRetry => exact execLimpRetry_carries h
  | presenceSchedulePoint => exact execPresenceSchedulePoint_carries hm h
  | memberLost id => exact execMemberLost_carries id h
  | windowEnd => exact execWindowEnd_carries h
  | lifetimeExpiry ticket => exact execLifetimeExpiry_carries ticket h
  | startBitSeen => exact execStartBitSeen_carries h

/-- At an idle that may be taken nothing is in flight, and idle ends what is being received. -/
theorem busIdle_before (hm : Modes s) (hw : s.bus.watches = true) :
    Carries s (((s.advanceToDue s.bus.idleDue).idleReception).setBus
      { ((s.advanceToDue s.bus.idleDue).idleReception).bus with idle := true, idleDue := none }) ∧
    s.flight = none := by
  have htx : s.bus.tx = none := by
    by_contra hne
    have := hm.txIff.mp (Option.isSome_iff_ne_none.mpr hne)
    simp [Bus.watches, this] at hw
  have hdue : Carries s (s.advanceToDue s.bus.idleDue) := by cases s.bus.idleDue <;> exact .of_eq rfl rfl
  have htx' : (s.advanceToDue s.bus.idleDue).bus.tx = none := by cases s.bus.idleDue <;> exact htx
  exact ⟨(hdue.trans (idleReception_carries htx')).trans (.of_eq rfl rfl), flight_of_tx htx⟩

theorem execBusIdle_sound (hm : Modes s) (h : s.cargo.Sound s.flight) (he : execBusIdle s = .next t) :
    t.cargo.Sound t.flight := by
  unfold execBusIdle at he
  split at he <;> obtain rfl := Host.Outcome.next.inj he
  case isTrue hw =>
    obtain ⟨hcarries, hf⟩ := busIdle_before hm hw.1
    exact atIdle_sound (hcarries.flight.trans hf) (hf ▸ hcarries.sound h)
  case isFalse => exact h

theorem execIntermissionPassed_sound (hm : Modes s) (h : s.cargo.Sound s.flight)
    (he : execIntermissionPassed s = .next t) : t.cargo.Sound t.flight := by
  unfold execIntermissionPassed at he
  split at he
  · obtain rfl := Host.Outcome.next.inj he
    exact h
  · dsimp only at he
    split at he <;> obtain rfl := Host.Outcome.next.inj he
    case isTrue hi =>
      have hf := hm.flight_of_idle hi.1
      exact atIdle_sound (s := (s.advanceTo _).setBus _) hf (hf ▸ h)
    case isFalse => exact h

theorem execLostArbitration_sound (bit : Nat) (h : s.cargo.Sound s.flight)
    (he : execLostArbitration bit s = .next t) : t.cargo.Sound t.flight := by
  unfold execLostArbitration at he
  split at he
  · obtain rfl := Host.Outcome.next.inj he
    exact h
  case h_2 x htx =>
    split at he <;> obtain rfl := Host.Outcome.next.inj he
    · have hsound : (s.stopDriving.giveBack x.origin).beginReceiving.cargo.Sound none := giveBack_sound htx h
      exact tx_congr_of_carries (receive_carries _ _ (giveBack_tx x.origin s)) hsound
        (flight_of_tx (giveBack_tx x.origin s))
    · exact h

theorem execDominantReadRecessive_sound (bit : Nat) (h : s.cargo.Sound s.flight)
    (he : execDominantReadRecessive s bit = .next t) : t.cargo.Sound t.flight := by
  unfold execDominantReadRecessive at he
  split at he
  · obtain rfl := Host.Outcome.next.inj he
    exact h
  case h_2 x htx =>
    split at he <;> obtain rfl := Host.Outcome.next.inj he
    · exact tx_congr_of_carries (awaitIdle_carries _ _ _) (giveBack_sound htx h)
        (flight_of_tx (giveBack_tx x.origin s))
    · exact h

theorem execStrike_sound (bit : Nat) (h : s.cargo.Sound s.flight) (he : execStrike bit s = .next t) :
    t.cargo.Sound t.flight := by
  unfold execStrike at he
  split at he
  · obtain rfl := Host.Outcome.next.inj he
    exact h
  case h_2 x htx =>
    have hsound := struck_sound htx h
    have hnone := struck_tx x.origin s
    split at he
    · dsimp only at he
      split at he <;> obtain rfl := Host.Outcome.next.inj he
      · exact tx_congr_of_carries (receive_carries (s := (s.struck x.origin).beginReceiving) _ _ hnone) hsound
          (flight_of_tx hnone)
      · exact tx_congr_of_carries (awaitIdle_carries _ _ _) hsound (flight_of_tx hnone)
    · obtain rfl := Host.Outcome.next.inj he
      exact h

theorem execCleanCompletion_sound (h : s.cargo.Sound s.flight) (he : execCleanCompletion s = .next t) :
    t.cargo.Sound t.flight := by
  unfold execCleanCompletion at he
  split at he <;> obtain rfl := Host.Outcome.next.inj he
  · exact h
  case h_2 x htx => exact reportCompletion_sound htx h

theorem restart_flight (s : State) : s.restart.flight = none := by
  refine flight_of_tx ?_
  simp only [State.restart, State.raiseEpoch, State.setPort_bus]
  rw [changeEpoch_rest]
  rfl

theorem restart_sound {f : Option Nat} (h : s.cargo.Sound f) : s.restart.cargo.Sound s.restart.flight := by
  have hcargo : s.restart.cargo = s.cargo.restart := by
    simp only [State.restart, State.raiseEpoch, State.setPort_cargo]
    rw [changeEpoch_cargo]
    rfl
  rw [hcargo, restart_flight]
  constructor <;> simp [Cargo.restart, h.lastTicket]

theorem reset_sound : Cargo.reset.Sound none := by constructor <;> simp [Cargo.reset]

theorem exec_sound {c : Instr} (hm : Modes s) (h : s.cargo.Sound s.flight) (he : exec c s = .next t) :
    t.cargo.Sound t.flight := by
  by_cases hc : Flies c
  · cases c with
    | busIdle => exact execBusIdle_sound hm h he
    | intermissionPassed => exact execIntermissionPassed_sound hm h he
    | lostArbitration bit => exact execLostArbitration_sound bit h he
    | dominantReadRecessive bit => exact execDominantReadRecessive_sound bit h he
    | strike bit => exact execStrike_sound bit h he
    | cleanCompletion => exact execCleanCompletion_sound h he
    | restart x =>
      refine Host.Outcome.next.inj he ▸ takeCommand_keeps (P := fun u => u.cargo.Sound u.flight) x
        (fun _ _ _ hu => hu) (fun p u hu => ?_) h
      unfold State.restartCommand
      split
      · exact restart_sound hu
      · exact hu
    | hardwareReset edge =>
      cases edge <;> obtain rfl := Host.Outcome.next.inj he
      · exact reset_sound
      · exact reset_sound
      · exact h
    | _ => exact hc.elim
  · exact (exec_carries hc hm he).keeps h

/-- Settles O55: every command and event keeps queues and flight sound, and a tick does not touch them. -/
theorem stepKeepsQueuesAndFlight : Obligations.StepKeepsQueuesAndFlight := by
  intro s t hm hq hf h
  rw [← sound_iff]
  have hs := sound_iff.mpr ⟨hq, hf⟩
  obtain rfl | ⟨c, rest, -, he⟩ := step_cases h
  · rw [tick_cargo, flight_congr (s := s) (by rw [tick_bus])]
    exact hs
  · exact exec_sound (hm.setPending rest) hs he

/-! ## The gate -/

/-- The router names an entry through an open gate alone. -/
theorem select_gate {k : Nat} (h : s.select.2 = some (.cargo k)) : s.gateOpen = true := by
  unfold State.select at h
  split at h
  · cases h
  · split at h
    · cases h
    · by_contra hg
      simp [State.headCandidate, hg] at h

theorem atIdle_gate {k : Nat} (hf : s.flight = none) (h : s.atIdle.flight = some k) : s.gateOpen = true := by
  have hnone : s.select.1.flight = none := (select_carries s).flight.trans hf
  have hselected (x : Option Selection) :
      (s.select.1.setBus { s.select.1.bus with selected := x }).flight = none := hnone
  unfold State.atIdle at h
  dsimp only at h
  split at h
  · rw [hselected] at h; cases h
  case h_2 x hx =>
    split at h
    · cases x with
      | comp =>
        unfold State.startFrame at h
        dsimp only at h
        split at h
        · cases h
        · rw [hnone] at h; cases h
      | cargo ticket => exact select_gate hx
    · rw [hselected] at h; cases h

theorem gateOpen_iff : s.gateOpen = true ↔ s.comp.state = .settled ∨ s.comp.state = .limp ∨
    (s.currentIsLimp = true ∧ (s.comp.state = .quiet ∨ s.comp.state = .offer ∨ s.comp.state = .confirm)) := by
  unfold State.gateOpen State.roundKind State.roundRunning
  cases s.comp.state <;> cases s.currentIsLimp <;> decide

theorem gateOpen_congr (h : t.comp = s.comp) : t.gateOpen = s.gateOpen := by
  show (s.setComp t.comp).gateOpen = s.gateOpen
  rw [h]
  rfl

/-- Where an event ends in an idle that sends a cargo frame, the gate is open at its end. -/
theorem atIdle_gate_after {k : Nat} (hf : s.flight = none) (h : s.atIdle.flight = some k) :
    s.atIdle.gateOpen = true := by
  rw [gateOpen_congr (atIdle_outside s).comp]
  exact atIdle_gate hf h

theorem execBusIdle_gate {k : Nat} (hm : Modes s) (hf : s.flight = none) (he : execBusIdle s = .next t)
    (h : t.flight = some k) : t.gateOpen = true := by
  unfold execBusIdle at he
  split at he <;> obtain rfl := Host.Outcome.next.inj he
  case isTrue hw => exact atIdle_gate_after ((busIdle_before hm hw.1).1.flight.trans hf) h
  case isFalse => rw [hf] at h; cases h

theorem execIntermissionPassed_gate {k : Nat} (hf : s.flight = none) (he : execIntermissionPassed s = .next t)
    (h : t.flight = some k) : t.gateOpen = true := by
  unfold execIntermissionPassed at he
  split at he
  · obtain rfl := Host.Outcome.next.inj he
    rw [hf] at h; cases h
  · dsimp only at he
    split at he <;> obtain rfl := Host.Outcome.next.inj he
    · exact atIdle_gate_after (s := (s.advanceTo _).setBus _) hf h
    · exact absurd (h.symm.trans hf) nofun

/-- The end of an own frame leaves nothing in flight, and where none ends, the flight stays. -/
theorem execLostArbitration_flight (bit : Nat) (he : execLostArbitration bit s = .next t) :
    t.flight = s.flight ∨ t.flight = none := by
  unfold execLostArbitration at he
  split at he
  · exact .inl (Host.Outcome.next.inj he ▸ rfl)
  case h_2 x htx =>
    split at he <;> obtain rfl := Host.Outcome.next.inj he
    · have hnone := giveBack_tx x.origin s
      exact .inr ((receive_carries (s := (s.stopDriving.giveBack x.origin).beginReceiving) _ _ hnone).flight.trans
        (flight_of_tx hnone))
    · exact .inl rfl

theorem execDominantReadRecessive_flight (bit : Nat) (he : execDominantReadRecessive s bit = .next t) :
    t.flight = s.flight ∨ t.flight = none := by
  unfold execDominantReadRecessive at he
  split at he
  · exact .inl (Host.Outcome.next.inj he ▸ rfl)
  case h_2 x htx =>
    split at he <;> obtain rfl := Host.Outcome.next.inj he
    · exact .inr ((awaitIdle_carries _ _ _).flight.trans (flight_of_tx (giveBack_tx x.origin s)))
    · exact .inl rfl

theorem execStrike_flight (bit : Nat) (he : execStrike bit s = .next t) : t.flight = s.flight ∨ t.flight = none := by
  unfold execStrike at he
  split at he
  · exact .inl (Host.Outcome.next.inj he ▸ rfl)
  case h_2 x htx =>
    have hnone := struck_tx x.origin s
    split at he
    · dsimp only at he
      split at he <;> obtain rfl := Host.Outcome.next.inj he
      · exact .inr ((receive_carries (s := (s.struck x.origin).beginReceiving) _ _ hnone).flight.trans
          (flight_of_tx hnone))
      · exact .inr ((awaitIdle_carries _ _ _).flight.trans (flight_of_tx hnone))
    · exact .inl (Host.Outcome.next.inj he ▸ rfl)

theorem execCleanCompletion_flight (he : execCleanCompletion s = .next t) :
    t.flight = s.flight ∨ t.flight = none := by
  unfold execCleanCompletion at he
  split at he <;> obtain rfl := Host.Outcome.next.inj he
  · exact .inl rfl
  case h_2 x htx => exact .inr ((reportCompletion_engineStep _ _).flight.trans (flight_of_tx rfl))

theorem exec_gate {c : Instr} {k : Nat} (hm : Modes s) (hf : s.flight = none) (he : exec c s = .next t)
    (h : t.flight = some k) : t.gateOpen = true := by
  by_cases hc : Flies c
  · have hstays (hs : t.flight = s.flight ∨ t.flight = none) : t.gateOpen = true := by
      obtain hs | hs := hs
      · rw [hs, hf] at h; cases h
      · rw [hs] at h; cases h
    cases c with
    | busIdle => exact execBusIdle_gate hm hf he h
    | intermissionPassed => exact execIntermissionPassed_gate hf he h
    | lostArbitration bit => exact hstays (execLostArbitration_flight bit he)
    | dominantReadRecessive bit => exact hstays (execDominantReadRecessive_flight bit he)
    | strike bit => exact hstays (execStrike_flight bit he)
    | cleanCompletion => exact hstays (execCleanCompletion_flight he)
    | restart x =>
      refine hstays (.inr (Host.Outcome.next.inj he ▸ takeCommand_keeps (P := fun u => u.flight = none) x
        (fun _ _ _ hu => hu) (fun p u hu => ?_) hf))
      unfold State.restartCommand
      split
      · exact restart_flight u
      · exact hu
    | hardwareReset edge =>
      refine hstays ?_
      cases edge <;> obtain rfl := Host.Outcome.next.inj he
      · exact .inr rfl
      · exact .inr rfl
      · exact .inl rfl
    | _ => exact hc.elim
  · rw [(exec_carries hc hm he).flight, hf] at h
    cases h

/-- Settles O59: a cargo frame begins where an idle names an entry, and the router names one through an open gate. -/
theorem cargoStartsOnlyThroughOpenGate : Obligations.CargoStartsOnlyThroughOpenGate :=
  fun _ _ _ _ hm hf he h => gateOpen_iff.mp (exec_gate hm hf he h)

end Sys2Proof.Machine
end

section
/-! The commands of the local port, each with its answer (R126, R134, R144, R146, R154 to R161). -/

namespace Sys2Proof.Machine

variable {s t : State}

/-! ## The step -/

/-- Settles O1: the step's definition, case by case. -/
theorem stepTakesFrontCommand : Obligations.StepTakesFrontCommand := by
  refine ⟨fun _ _ _ => rfl, fun s hs => ?_⟩
  unfold step
  split
  case h_1 =>
    unfold State.tick
    cases s.port.inReset <;> rfl
  case h_2 hq => rw [hs] at hq; cases hq

/-! ## The taking of a command -/

variable {mosi : List Bool} {answer : List Byte}

/-- A command refused: it answers its code and changes nothing else. -/
theorem takeCommand_refused {run : List Byte → State → State × List Byte} (h : s.ready) (a : Answer)
    (hr : run ((wholeBytes mosi).take 160) (s.clockOut (8 + mosi.length) []) =
      (s.clockOut (8 + mosi.length) []).refuse a) :
    s.takeCommand (.csnRises mosi) run = s.answered mosi [a.byte] :=
  takeCommand_answered h fun _ h1 => h1 ▸ hr

theorem wholeBytes_length (mosi : List Bool) : (wholeBytes mosi).length = mosi.length / 8 := by
  have hlen (n : Nat) (l : List Bool) : (bytesOfBits n l).length = n := by
    induction n generalizing l with
    | zero => rfl
    | succ n ih => rw [bytesOfBits, List.length_cons, ih]
  exact hlen _ _

theorem wholeBytes_nil (h : mosi.length < 8) : wholeBytes mosi = [] := by
  rw [← List.length_eq_zero_iff, wholeBytes_length]
  omega

theorem not_started (h : s.port.part = .unconfigured) : s.started = false := by simp [State.started, h]

theorem running_of (h : s.port.part = .running) : s.running = true := by simp [State.running, h]

/-! ## CONFIGURE -/

theorem PayloadMax.ofCode?_code (p : PayloadMax) : PayloadMax.ofCode? p.code = some p := by cases p <;> rfl

theorem CabEnds.ofCode?_code (c : CabEnds) : CabEnds.ofCode? c.code = some c := by cases c <;> rfl

theorem PayloadMax.ofCode?_none {n : Nat} (h : 3 < n) : PayloadMax.ofCode? n = none := by
  unfold PayloadMax.ofCode?
  split <;> first | omega | rfl

theorem CabEnds.ofCode?_none {n : Nat} (h : 3 < n) : CabEnds.ofCode? n = none := by
  unfold CabEnds.ofCode?
  split <;> first | omega | rfl

/-- K as taken from its field, with the clamp of R11. -/
theorem kOfField_toNat (k : Byte) :
    kOfField k.toNat = if k = 0 then 3 else if k = 1 then 2 else min 8 k.toNat := by
  have hzero : k.toNat = 0 ↔ k = 0 := ⟨fun h => BitVec.eq_of_toNat_eq h, fun h => by rw [h]; rfl⟩
  have hone : k.toNat = 1 ↔ k = 1 := ⟨fun h => BitVec.eq_of_toNat_eq h, fun h => by rw [h]; rfl⟩
  simp only [kOfField, hzero, hone]
  split_ifs <;> omega

theorem setWidth_eq_extractLsb' {m : Nat} (n : Nat) (x : BitVec m) : x.setWidth n = x.extractLsb' 0 n := by
  apply BitVec.eq_of_toNat_eq
  simp

/-- CONFIGURE of ten bytes or more that pass the checks. -/
theorem configure_accepts {i0 i1 i2 i3 grades pay k cab m0 m1 : Byte} {more : List Byte} {pm : PayloadMax}
    {ce : CabEnds} (hs : s.started = false) (hid : i0 ++ i1 ++ i2 ++ i3 ≠ 0#32) (hg : grades.getLsbD 0 = true)
    (hpm : pm.code = pay.toNat) (hce : ce.code = cab.toNat) :
    s.configure (i0 :: i1 :: i2 :: i3 :: grades :: pay :: k :: cab :: m0 :: m1 :: more) =
      (s.setImage { identity := i0 ++ i1 ++ i2 ++ i3, permitted := grades.extractLsb' 0 4, payloadMax := pm
                    k := if k = 0 then 3 else if k = 1 then 2 else min 8 k.toNat, cabEnds := ce }
        ((m0 ++ m1).extractLsb' 0 15)).done [] := by
  have hword : word32 i0 i1 i2 i3 ≠ 0 := hid
  unfold State.configure
  rw [if_neg (by simp [hs])]
  dsimp only
  rw [if_neg hword, if_neg (by simp [hg]), ← hpm, ← hce, PayloadMax.ofCode?_code, CabEnds.ofCode?_code]
  dsimp only
  rw [kOfField_toNat, setWidth_eq_extractLsb', setWidth_eq_extractLsb']
  rfl

theorem configure_short {p : List Byte} (hs : s.started = false) (h : p.length < 10) :
    s.configure p = s.refuse .badParameter := by
  unfold State.configure
  rw [if_neg (by simp [hs])]
  split
  · simp at h; omega
  · rfl

theorem configure_bad {i0 i1 i2 i3 grades pay k cab m0 m1 : Byte} {more : List Byte} (hs : s.started = false)
    (h : i0 ++ i1 ++ i2 ++ i3 = 0#32 ∨ grades.getLsbD 0 = false ∨ 3 < pay.toNat ∨ 3 < cab.toNat) :
    s.configure (i0 :: i1 :: i2 :: i3 :: grades :: pay :: k :: cab :: m0 :: m1 :: more) =
      s.refuse .badParameter := by
  unfold State.configure
  rw [if_neg (by simp [hs])]
  dsimp only
  split_ifs with hid hg
  · rfl
  · rfl
  · obtain h | h | h | h := h
    · exact absurd h hid
    · exact absurd h hg
    · rw [PayloadMax.ofCode?_none h]
    · rw [CabEnds.ofCode?_none h]
      split
      · contradiction
      · rfl

/-- Settles O2, by the acceptance and the two refusals of CONFIGURE. -/
theorem configureReplacesImageOrRefuses : Obligations.ConfigureReplacesImageOrRefuses := by
  refine ⟨fun s mosi i0 i1 i2 i3 grades pay k cab m0 m1 more pm ce hready hpart hid hg hpm hce hbytes => ?_,
    fun s hready hpart => ⟨fun mosi hlen => ?_, fun mosi i0 i1 i2 i3 grades pay k cab m0 m1 more hbytes hbad => ?_⟩⟩
  · refine congrArg Host.Outcome.next ?_
    rw [takeCommand_ready hready, hbytes]
    simp only [List.take_succ_cons]
    rw [configure_accepts (s := s.clockOut (8 + mosi.length) []) (not_started hpart) hid hg hpm hce, clockOut_zeros]
    rfl
  · refine congrArg Host.Outcome.next (takeCommand_refused hready .badParameter ?_)
    exact configure_short (not_started hpart) (by rw [List.length_take]; omega)
  · refine congrArg Host.Outcome.next (takeCommand_refused hready .badParameter ?_)
    rw [hbytes]
    exact configure_bad (s := s.clockOut _ _) (not_started hpart) hbad

/-! ## SET CAB and RECOMPOSE -/

theorem CabSetting.ofCode?_code (x : CabSetting) : CabSetting.ofCode? x.code = some x := by cases x <;> rfl

theorem CabSetting.ofCode?_none {n : Nat} (h : 2 < n) : CabSetting.ofCode? n = none := by
  unfold CabSetting.ofCode?
  split <;> first | omega | rfl

/-- A setting is allowed exactly where its active end has a cab. -/
theorem CabEnds.allows_iff (c : CabEnds) (x : CabSetting) : c.allows x = true ↔
    (x = .activeA → c = .onlyA ∨ c = .both) ∧ (x = .activeB → c = .onlyB ∨ c = .both) := by
  cases c <;> cases x <;> decide

theorem triggers_of_takes {r : Reason} (h : s.comp.state.takesTriggers) (hr : r ≠ .chain ∧ r ≠ .parting) :
    NewRound s (s.trigger r) (s.comp.epoch + 1) r := by
  refine trigger_newRound ?_
  obtain h | h | h | h | h := h <;> simp [h, hr]

theorem setCabCommand_accepts {b : Byte} {more : List Byte} {x : CabSetting} (hs : s.port.part = .running)
    (hx : x.code = b.toNat) (hallows : s.cabEnds.allows x = true) :
    s.setCabCommand (b :: more) = (s.setCab x).done [] := by
  simp only [State.setCabCommand, running_of hs, if_true, ← hx, CabSetting.ofCode?_code, hallows]

theorem setCabCommand_bad {b : Byte} {more : List Byte} (hs : s.port.part = .running)
    (h : 2 < b.toNat ∨ (b.toNat = 1 ∧ (s.cabEnds = .neither ∨ s.cabEnds = .onlyB)) ∨
      (b.toNat = 2 ∧ (s.cabEnds = .neither ∨ s.cabEnds = .onlyA))) :
    s.setCabCommand (b :: more) = s.refuse .badParameter := by
  simp only [State.setCabCommand, running_of hs, if_true]
  obtain h | ⟨h, hc⟩ | ⟨h, hc⟩ := h
  · rw [CabSetting.ofCode?_none h]
  all_goals
    rw [h]
    obtain hc | hc := hc <;> rw [hc] <;> rfl

/-- Settles O5, by the acceptance and the refusals of SET CAB. -/
theorem setCabReplacesSettingOrRefuses : Obligations.SetCabReplacesSettingOrRefuses := by
  refine ⟨fun s mosi b more x hbytes hready hpart hx ha hb => ⟨fun hsame => ?_, fun hnew hstate => ?_⟩,
    fun s hready hpart => ⟨fun mosi hlen => ?_, fun mosi b more hbytes hbad => ?_⟩⟩
  · refine congrArg Host.Outcome.next (takeCommand_answered hready fun u hu => ?_)
    rw [hbytes, hu]
    refine (setCabCommand_accepts (s := s.clockOut _ _) hpart hx ((CabEnds.allows_iff s.cabEnds x).mpr ⟨ha, hb⟩)).trans ?_
    rw [State.setCab, if_pos (by rw [clockOut_cab]; exact hsame)]
    rfl
  · refine ⟨_, rfl, ?_⟩
    rw [takeCommand_done hready (t := (s.clockOut (8 + mosi.length) []).setCab x) (answer := [0x00]) (by
      rw [hbytes]
      exact setCabCommand_accepts hpart hx ((CabEnds.allows_iff s.cabEnds x).mpr ⟨ha, hb⟩))]
    rw [State.setCab, if_neg (by rw [clockOut_cab]; exact hnew), clockOut_zeros]
    exact (triggers_of_takes (r := .cab) (s := { s with port := { s.port with
      csn := none, miso := s.zerosOut mosi.length, cab := x } }) hstate ⟨nofun, nofun⟩).leaveAnswer [0x00]
  · refine congrArg Host.Outcome.next (takeCommand_refused hready .badParameter ?_)
    rw [wholeBytes_nil hlen]
    simp only [State.setCabCommand, clockOut_running, running_of hpart, if_true, List.take_nil]
  · refine congrArg Host.Outcome.next (takeCommand_refused hready .badParameter ?_)
    rw [hbytes]
    exact setCabCommand_bad hpart hbad

/-- The kind of the round that a trigger begins (R63). -/
theorem NewRound.roundKind {e : Epoch} {r : Reason} (h : NewRound s t e r) :
    t.roundKind = if s.currentIsLimp then .background else .foreground := by
  have hstate : t.comp.state = .quiet := by rw [h.comp]
  have hcurrent : t.comp.current = s.comp.current := by rw [h.comp]
  have hlimp : t.currentIsLimp = s.currentIsLimp := by simp only [State.currentIsLimp, hcurrent]
  simp [State.roundKind, State.roundRunning, hstate, hlimp]

/-- Settles O7: in RUNNING the trigger of RECOMPOSE begins a round, and elsewhere it is refused. -/
theorem recomposeBeginsRound : Obligations.RecomposeBeginsRound := by
  refine fun s mosi hready => ⟨fun hpart hstate => ?_, fun hpart => ?_⟩
  · have hround : NewRound { s with port := s.port.answering s mosi [0x00] }
        (s.takeCommand (.csnRises mosi) State.recomposeCommand) (s.comp.epoch + 1) .command := by
      rw [takeCommand_done hready (t := (s.clockOut (8 + mosi.length) []).trigger .command) (answer := [0x00]) (by
        simp only [State.recomposeCommand, clockOut_running, running_of hpart, if_true]; rfl)]
      rw [clockOut_zeros]
      exact (triggers_of_takes (r := .command) (s := { s with port := { s.port with
        csn := none, miso := s.zerosOut mosi.length } }) hstate ⟨nofun, nofun⟩).leaveAnswer [0x00]
    exact ⟨_, rfl, hround, hround.roundKind⟩
  · refine congrArg Host.Outcome.next (takeCommand_refused hready .notNow ?_)
    rw [State.recomposeCommand, if_neg (by rw [clockOut_running]; simpa [State.running] using hpart)]

end Sys2Proof.Machine
end

section
/-! The cargo commands of the local port (R126, R127, R132, R134, R144 to R146). -/

namespace Sys2Proof.Machine

variable {s t : State} {mosi : List Bool}

/-! ## The next ticket (R127) -/

/-- The value `i` steps behind the last ticket issued. -/
def ticketAfter (last i : Nat) : Nat := (last + i) % 255 + 1

/-- At most 24 tickets leave one of any 25 that follow one another free. -/
theorem free_ticketAfter (last : Nat) {held : List Nat} (hlen : held.length ≤ 24) :
    ∃ i < 25, ticketAfter last i ∉ held := by
  by_contra hall
  have hsub : (List.range 25).map (ticketAfter last) ⊆ held := by
    intro x hx
    obtain ⟨i, hi, rfl⟩ := List.mem_map.mp hx
    by_contra hfree
    exact hall ⟨i, List.mem_range.mp hi, hfree⟩
  have hnodup : ((List.range 25).map (ticketAfter last)).Nodup := by
    refine List.Nodup.map_on (fun i hi j hj hij => ?_) List.nodup_range
    rw [List.mem_range] at hi hj
    unfold ticketAfter at hij
    omega
  have hle := (hnodup.subperm hsub).length_le
  simp only [List.length_map, List.length_range] at hle
  omega

/-- The next ticket is the first free one. -/
theorem nextTicket_first (last : Nat) {held : List Nat} (hlen : held.length ≤ 24) :
    ∃ i < 25, nextTicket last held = ticketAfter last i ∧ nextTicket last held ∉ held ∧
      ∀ j < i, ticketAfter last j ∈ held := by
  obtain ⟨n, hn, hfree⟩ := free_ticketAfter last hlen
  have hticket : nextTicket last held =
      (((List.range 255).find? fun i => !held.contains (ticketAfter last i)).map (ticketAfter last)).getD 1 := by
    unfold nextTicket
    rw [List.find?_map]
    rfl
  cases hfind : (List.range 255).find? fun i => !held.contains (ticketAfter last i) with
  | none =>
    have hheld := List.find?_eq_none.mp hfind n (List.mem_range.mpr (by omega))
    simp [hfree] at hheld
  | some i =>
    obtain ⟨hi, -, hbefore⟩ := List.find?_range_eq_some.mp hfind
    have hin : i ≤ n := by
      by_contra hlt
      have hheld := hbefore n (by omega)
      simp [hfree] at hheld
    refine ⟨i, by omega, by rw [hticket, hfind]; rfl, by rw [hticket, hfind]; simpa using hi, fun j hj => ?_⟩
    simpa using hbefore j hj

/-! ## SUBMIT -/

variable {mode v0 v1 v2 v3 urgency lifetime len : Byte} {rest : List Byte} {d : Dest}

theorem submitCommand_short {p : List Byte} (hs : s.port.part = .running) (h : p.length < 8) :
    s.submitCommand p = s.refuse .badParameter := by
  unfold State.submitCommand
  rw [if_pos (running_of hs)]
  split
  · simp at h; omega
  · rfl

theorem submitCommand_eq (hs : s.port.part = .running) :
    s.submitCommand (mode :: v0 :: v1 :: v2 :: v3 :: urgency :: lifetime :: len :: rest) =
      if rest.length < submitNeeds len.toNat then s.refuse .badParameter
      else s.submitChecks mode (word32 v0 v1 v2 v3) urgency lifetime len rest := by
  unfold State.submitCommand
  rw [if_pos (running_of hs)]

/-- What the port takes of a SUBMIT's bytes: its fixed part, and 152 bytes behind it. -/
theorem take_submit (h : wholeBytes mosi = mode :: v0 :: v1 :: v2 :: v3 :: urgency :: lifetime :: len :: rest) :
    (wholeBytes mosi).take 160 =
      mode :: v0 :: v1 :: v2 :: v3 :: urgency :: lifetime :: len :: rest.take 152 := by
  rw [h]
  simp only [List.take_succ_cons]

/-- The 152 bytes hold any payload that the layout requires. -/
theorem take_enough (h : submitNeeds len.toNat ≤ rest.length) :
    ¬ (rest.take 152).length < submitNeeds len.toNat := by
  have hbound : submitNeeds len.toNat ≤ 152 := by unfold submitNeeds; split_ifs <;> omega
  rw [List.length_take]
  exact not_lt.mpr (le_min hbound h)

theorem submitChecks_invalid {v : BitVec 32} (h : s.submitDest mode v = none ∨ 1 < urgency.toNat) :
    s.submitChecks mode v urgency lifetime len rest = s.refuse .badParameter := by
  unfold State.submitChecks
  split
  · rfl
  · rw [if_pos (h.resolve_left (by simp_all))]

theorem submitChecks_tooLong {v : BitVec 32} (hd : s.submitDest mode v ≠ none) (hu : urgency.toNat ≤ 1)
    (h : len.toNat = 0 ∨ s.submitMax < len.toNat) :
    s.submitChecks mode v urgency lifetime len rest = s.refuse .tooLong := by
  unfold State.submitChecks
  split
  · contradiction
  · rw [if_neg (by omega), if_pos h]

theorem submitChecks_full {v : BitVec 32} (hd : s.submitDest mode v ≠ none) (hu : urgency.toNat ≤ 1)
    (hlow : 1 ≤ len.toNat) (hmax : len.toNat ≤ s.submitMax) (h : 24 ≤ s.cargo.queue.length) :
    s.submitChecks mode v urgency lifetime len rest = s.refuse .queueFull := by
  unfold State.submitChecks
  split
  · contradiction
  · rw [if_neg (by omega), if_neg (by omega), if_pos h]

theorem submitChecks_accepts {v : BitVec 32} (hd : s.submitDest mode v = some d) (hu : urgency.toNat ≤ 1)
    (hlow : 1 ≤ len.toNat) (hmax : len.toNat ≤ s.submitMax) (h : s.cargo.queue.length < 24) :
    s.submitChecks mode v urgency lifetime len rest =
      s.enqueue d (urgency.toNat = 1) lifetime.toNat (rest.take len.toNat) := by
  unfold State.submitChecks
  rw [hd]
  dsimp only
  rw [if_neg (by omega), if_neg (by omega), if_neg (by omega)]

/-- Settles O8, by the acceptance of SUBMIT and by `nextTicket_first`. -/
theorem submitQueuesMessage : Obligations.SubmitQueuesMessage := by
  refine ⟨fun s mosi mode v0 v1 v2 v3 urgency lifetime len payload more d hbytes hready hpart hd hu hlen hlow
    hmax hhigh hroom => ?_, fun last held _ _ hheld => nextTicket_first last hheld⟩
  refine congrArg Host.Outcome.next ?_
  have hpayload : (((payload ++ more).take 152).take len.toNat) = payload := by
    rw [List.take_take, Nat.min_eq_left (by omega), ← hlen, List.take_left]
  have hneeds : submitNeeds len.toNat ≤ (payload ++ more).length := by
    rw [List.length_append, submitNeeds, if_pos ⟨hlow, hhigh⟩]
    omega
  rw [takeCommand_ready hready, take_submit hbytes, submitCommand_eq (s := s.clockOut (8 + mosi.length) []) hpart,
    if_neg (take_enough hneeds),
    submitChecks_accepts (v := word32 v0 v1 v2 v3) (s := s.clockOut (8 + mosi.length) []) hd hu hlow hmax hroom, hpayload, clockOut_zeros]
  rfl

theorem submitDest_position {v : BitVec 32} (hm : mode.toNat = 0) : s.submitDest mode v =
    if 1 ≤ v.toNat ∧ v.toNat ≤ 16 ∧ s.comp.current.map Roster.ownPos ≠ some v.toNat then
      some (.position v.toNat s.comp.current.isSome) else none := by
  simp only [State.submitDest, hm]

theorem submitDest_identity {v : BitVec 32} (hm : mode.toNat = 1) : s.submitDest mode v =
    if v ≠ 0 ∧ v ≠ s.identity then some (.identity v) else none := by
  simp only [State.submitDest, hm]

theorem submitDest_above {v : BitVec 32} (hm : 4 < mode.toNat) : s.submitDest mode v = none := by
  unfold State.submitDest
  split <;> first | omega | rfl

theorem submitMax_some {r : Roster} {i : Image} (hi : s.port.image = some i) (hr : s.comp.current = some r) :
    s.submitMax = min i.payloadMax.bytes r.jointPayload.bytes := by
  simp only [State.submitMax, hr, State.payloadMax, hi]

theorem submitMax_none {i : Image} (hi : s.port.image = some i) (hr : s.comp.current = none) :
    s.submitMax = i.payloadMax.bytes := by
  simp only [State.submitMax, hr, State.payloadMax, hi]

/-- Settles O9: the checks of SUBMIT, its destinations by mode, and its payload limit. -/
theorem submitChecksInOrder : Obligations.SubmitChecksInOrder := by
  refine ⟨fun s hready hpart => ⟨fun mosi hshort => ?_, fun mosi mode v0 v1 v2 v3 urgency lifetime len rest hbytes =>
    ⟨fun hless => ?_, fun hneeds => ⟨fun hbad => ?_, fun hd hu => ⟨fun hlen => ?_, fun hlow hmax hfull => ?_⟩⟩⟩⟩,
    fun s mode v => ⟨fun hm hlow hhigh hown => ?_, fun hm hbad => ?_, fun hm hzero hown => ?_, fun hm hbad => ?_,
      fun hm => by simp only [State.submitDest, hm], fun hm => by simp only [State.submitDest, hm],
      fun hm => by simp only [State.submitDest, hm], submitDest_above⟩,
    fun s i hi => ⟨fun r hr => (submitMax_some hi hr).trans ?_, fun hr => (submitMax_none hi hr).trans ?_⟩⟩
  · refine congrArg Host.Outcome.next (takeCommand_refused hready .badParameter ?_)
    exact submitCommand_short hpart (by rw [List.length_take]; omega)
  · refine congrArg Host.Outcome.next (takeCommand_refused hready .badParameter ?_)
    rw [take_submit hbytes, submitCommand_eq (s := s.clockOut _ _) hpart, if_pos]
    rw [List.length_take]
    exact lt_of_le_of_lt (min_le_right _ _) hless
  · refine congrArg Host.Outcome.next (takeCommand_refused hready .badParameter ?_)
    rw [take_submit hbytes, submitCommand_eq (s := s.clockOut _ _) hpart, if_neg (take_enough hneeds)]
    exact submitChecks_invalid hbad
  · refine congrArg Host.Outcome.next (takeCommand_refused hready .tooLong ?_)
    rw [take_submit hbytes, submitCommand_eq (s := s.clockOut _ _) hpart, if_neg (take_enough hneeds)]
    exact submitChecks_tooLong hd hu hlen
  · refine congrArg Host.Outcome.next (takeCommand_refused hready .queueFull ?_)
    rw [take_submit hbytes, submitCommand_eq (s := s.clockOut _ _) hpart, if_neg (take_enough hneeds)]
    exact submitChecks_full hd hu hlow hmax hfull
  · rw [submitDest_position hm, if_pos]
    refine ⟨hlow, hhigh, fun hsome => ?_⟩
    obtain ⟨r, hr, hpos⟩ := Option.map_eq_some_iff.mp hsome
    exact hown r hr hpos
  · rw [submitDest_position hm, if_neg]
    rintro ⟨hlow, hhigh, hown⟩
    obtain h | h | ⟨r, hr, hpos⟩ := hbad
    · omega
    · omega
    · exact hown (by rw [hr, ← hpos]; rfl)
  · rw [submitDest_identity hm, if_pos ⟨hzero, hown⟩]
  · rw [submitDest_identity hm, if_neg]
    rintro ⟨hzero, hown⟩
    exact hbad.elim hzero hown
  · cases i.payloadMax <;> cases r.jointPayload <;> rfl
  · cases i.payloadMax <;> rfl

/-! ## WITHDRAW -/

theorem withdrawCommand_eq {b : Byte} {more : List Byte} (hs : s.port.part ≠ .unconfigured) :
    s.withdrawCommand (b :: more) = s.withdrawTicket b.toNat := by
  unfold State.withdrawCommand
  rw [if_pos (started_iff.mpr hs)]

/-- With no ticket twice, a queued entry is the one that its ticket finds. -/
theorem entryOf_eq {x : TxEntry} {ticket : Nat} (hx : x ∈ s.cargo.queue) (hk : x.ticket = ticket)
    (hnodup : (s.cargo.queue.map TxEntry.ticket).Nodup) : s.entryOf ticket = some x := by
  cases hfind : s.entryOf ticket with
  | none => exact absurd (List.find?_eq_none.mp hfind x hx) (by simp [hk])
  | some y =>
    obtain ⟨hy, hyk⟩ := entryOf_mem hfind
    rw [List.inj_on_of_nodup_map hnodup hy hx (hyk.trans hk.symm)]

theorem entryOf_none {ticket : Nat} (h : ∀ x ∈ s.cargo.queue, x.ticket ≠ ticket) : s.entryOf ticket = none :=
  List.find?_eq_none.mpr fun x hx => by simpa using h x hx

theorem post_room {ticket : Nat} {kind : OutcomeKind} {p : Option Nat} (h : s.cargo.outcomes.length < 32) :
    s.post ticket kind p = { s with
      cargo := { s.cargo with outcomes := s.cargo.outcomes ++ [⟨ticket, kind, p⟩] }
      port := { s.port with flags := s.port.flags ||| 0x0040#15 } } := by
  rw [State.post, if_pos h]
  rfl

theorem post_full {ticket : Nat} {kind : OutcomeKind} {p : Option Nat} (h : 32 ≤ s.cargo.outcomes.length) :
    s.post ticket kind p = { s with
      cargo := { s.cargo with outcomeLoss := satInc s.cargo.outcomeLoss }
      port := { s.port with flags := s.port.flags ||| 0x1000#15 } } := by
  rw [State.post, if_neg (by omega)]
  rfl

/-- The removal of an entry with room for its outcome. -/
theorem removeEntry_room {ticket : Nat} {kind : OutcomeKind} {p : Option Nat} (h : s.cargo.outcomes.length < 32) :
    s.removeEntry ticket kind p = { s with
      cargo := { s.cargo with
        queue := s.cargo.queue.filter fun x => x.ticket ≠ ticket
        outcomes := s.cargo.outcomes ++ [⟨ticket, kind, p⟩] }
      port := { s.port with flags := s.port.flags ||| 0x0040#15 } } := by
  rw [State.removeEntry, post_room (by exact h)]
  rfl

theorem removeEntry_full {ticket : Nat} {kind : OutcomeKind} {p : Option Nat} (h : 32 ≤ s.cargo.outcomes.length) :
    s.removeEntry ticket kind p = { s with
      cargo := { s.cargo with
        queue := s.cargo.queue.filter fun x => x.ticket ≠ ticket
        outcomeLoss := satInc s.cargo.outcomeLoss }
      port := { s.port with flags := s.port.flags ||| 0x1000#15 } } := by
  rw [State.removeEntry, post_full (by exact h)]
  rfl

theorem withdrawTicket_flying {x : TxEntry} {ticket : Nat} (hx : s.entryOf ticket = some x) (h : x.inFlight = true) :
    s.withdrawTicket ticket = s.refuse .tooLate := by
  simp only [State.withdrawTicket, hx, h, if_true]

theorem withdrawTicket_queued {x : TxEntry} {ticket : Nat} (hx : s.entryOf ticket = some x)
    (h : x.inFlight = false) : s.withdrawTicket ticket = (s.removeEntry ticket .withdrawn none).done [] := by
  simp [State.withdrawTicket, hx, h]

theorem withdrawTicket_none {ticket : Nat} (hx : s.entryOf ticket = none) :
    s.withdrawTicket ticket = s.refuse .notFound := by
  simp only [State.withdrawTicket, hx]

/-- Settles O10, by the entry that the ticket finds. -/
theorem withdrawRemovesQueuedEntry : Obligations.WithdrawRemovesQueuedEntry := by
  refine fun s mosi hready hpart => ⟨fun hlen => ?_, fun b more hbytes => ⟨fun x hx hk hnodup =>
    ⟨fun hfly => ?_, fun hstay hroom => ?_, fun hstay hfull => ?_⟩, fun hnone => ?_⟩⟩
  · refine congrArg Host.Outcome.next (takeCommand_refused hready .badParameter ?_)
    rw [wholeBytes_nil hlen, List.take_nil, State.withdrawCommand, clockOut_started, if_pos (started_iff.mpr hpart)]
  · refine congrArg Host.Outcome.next (takeCommand_refused hready .tooLate ?_)
    rw [hbytes, List.take_succ_cons, withdrawCommand_eq (s := s.clockOut _ _) hpart]
    exact withdrawTicket_flying (entryOf_eq hx hk hnodup) hfly
  · refine congrArg Host.Outcome.next ?_
    rw [takeCommand_ready hready, hbytes, List.take_succ_cons,
      withdrawCommand_eq (s := s.clockOut (8 + mosi.length) []) hpart,
      withdrawTicket_queued (s := s.clockOut (8 + mosi.length) []) (entryOf_eq hx hk hnodup) hstay,
      removeEntry_room (by exact hroom), clockOut_zeros]
    rfl
  · refine congrArg Host.Outcome.next ?_
    rw [takeCommand_ready hready, hbytes, List.take_succ_cons,
      withdrawCommand_eq (s := s.clockOut (8 + mosi.length) []) hpart,
      withdrawTicket_queued (s := s.clockOut (8 + mosi.length) []) (entryOf_eq hx hk hnodup) hstay,
      removeEntry_full (by exact hfull.ge), clockOut_zeros]
    rfl
  · refine congrArg Host.Outcome.next (takeCommand_refused hready .notFound ?_)
    rw [hbytes, List.take_succ_cons, withdrawCommand_eq (s := s.clockOut _ _) hpart]
    exact withdrawTicket_none (entryOf_none hnone)

/-! ## TAKE and READ OUTCOMES -/

theorem takeArrival_cons {x : RxEntry} {xs : List RxEntry} {p : List Byte} (hs : s.port.part ≠ .unconfigured)
    (hx : s.cargo.received = x :: xs) :
    s.takeArrival p = (s.setCargo { s.cargo with received := xs }).done x.bytes := by
  simp only [State.takeArrival, started_iff.mpr hs, if_true, hx]

theorem readOutcomesCommand_nonempty {p : List Byte} (hs : s.port.part ≠ .unconfigured)
    (h : s.cargo.outcomes ≠ []) : s.readOutcomesCommand p =
      (s.setCargo { s.cargo with outcomes := s.cargo.outcomes.drop 8 }).done
        (byteOf (min 8 s.cargo.outcomes.length) :: (s.cargo.outcomes.take 8).flatMap OutcomeRecord.bytes) := by
  rw [← List.length_take]
  unfold State.readOutcomesCommand
  rw [if_pos (started_iff.mpr hs)]
  split
  case h_1 hnil => exact absurd (List.take_eq_nil_iff.mp hnil) (by simp [h])
  case h_2 hcons => rw [hcons]

/-- Settles O11, by the head of the queue that each of the two commands reads. -/
theorem arrivalsAndOutcomesAreTaken : Obligations.ArrivalsAndOutcomesAreTaken := by
  refine fun s mosi hready => ⟨fun hpart => ⟨?_, ?_⟩, fun hpart => ⟨fun hnil => ?_, fun x xs hx => ?_,
    fun hnil => ?_, fun hne => ?_⟩⟩
  · refine congrArg Host.Outcome.next (takeCommand_refused hready .notNow ?_)
    rw [State.takeArrival, clockOut_started, not_started hpart]
    rfl
  · refine congrArg Host.Outcome.next (takeCommand_refused hready .notNow ?_)
    rw [State.readOutcomesCommand, clockOut_started, not_started hpart]
    rfl
  · refine congrArg Host.Outcome.next (takeCommand_refused hready .empty ?_)
    simp only [State.takeArrival, clockOut_started, started_iff.mpr hpart, if_true, clockOut_cargo, hnil]
  · refine congrArg Host.Outcome.next ?_
    rw [takeCommand_ready hready, takeArrival_cons (s := s.clockOut (8 + mosi.length) []) hpart hx, clockOut_zeros]
    cases hr : x.renamed <;> simp only [RxEntry.bytes, hr] <;> rfl
  · refine congrArg Host.Outcome.next (takeCommand_refused hready .empty ?_)
    simp only [State.readOutcomesCommand, clockOut_started, started_iff.mpr hpart, if_true, clockOut_cargo, hnil,
      List.take_nil]
  · refine congrArg Host.Outcome.next ?_
    rw [takeCommand_ready hready, readOutcomesCommand_nonempty (s := s.clockOut (8 + mosi.length) []) hpart hne,
      clockOut_zeros]
    rfl

end Sys2Proof.Machine
end

section
/-! The commands that read the part: READ ROSTER, READ STATE and READ EVENTS (R113, R163, R164). -/

namespace Sys2Proof.Machine

variable {s t : State} {mosi : List Bool}

/-! ## Codes

Each code is the place of its value in the list of its table (sections 10.2, 10.3.3). -/

theorem Grade.code_eq (g : Grade) : g.code = [Grade.g1, .g2, .g3, .g4].idxOf g := by cases g <;> rfl

theorem PayloadMax.code_eq (p : PayloadMax) : p.code = [PayloadMax.p16, .p32, .p64, .p128].idxOf p := by
  cases p <;> rfl

theorem EndState.code_eq (x : EndState) :
    x.code = [EndState.openEnd, .held, .parting, .fault, .isolated].idxOf x := by cases x <;> rfl

theorem facingCode_eq (x : Option End) : facingCode x = [none, some End.a, some .b].idxOf x := by
  cases x with
  | none => rfl
  | some e => cases e <;> rfl

theorem PartState.code_eq (x : PartState) : x.code = [PartState.unconfigured, .running, .silenced].idxOf x := by
  cases x <;> rfl

theorem CabEnds.code_eq (x : CabEnds) : x.code = [CabEnds.neither, .onlyA, .onlyB, .both].idxOf x := by
  cases x <;> rfl

theorem CabSetting.code_eq (x : CabSetting) : x.code = [CabSetting.inactive, .activeA, .activeB].idxOf x := by
  cases x <;> rfl

theorem DecState.code_eq (x : DecState) :
    x.code = [DecState.openLine, .acquiring, .held, .parting, .fault, .isolated].idxOf x := by cases x <;> rfl

theorem faultCode_eq (x : Option FaultReason) :
    faultCode x = [none, some FaultReason.unclear, some .stuckHigh].idxOf x := by
  cases x with
  | none => rfl
  | some r => cases r <;> rfl

theorem CompState.code_eq (x : CompState) :
    x.code = [CompState.idle, .quiet, .offer, .confirm, .settled, .limp, .halted].idxOf x := by cases x <;> rfl

theorem Reason.code_eq (x : Reason) : x.code =
    [Reason.noReason, .chain, .parting, .cab, .ceiling, .command, .clash, .start, .limpRetry, .memberLost,
      .digestMismatch, .strangerOffer, .roundFailed, .newerEpoch].idxOf x := by cases x <;> rfl

theorem Ctrl.code_eq (x : Ctrl) :
    x.code = [Ctrl.off, .listening, .transmitting, .receiving, .resting, .silenced].idxOf x := by cases x <;> rfl

theorem bitAt_zero (b : Bool) : bitAt b 0 = if b then 0x01 else 0 := by cases b <;> rfl
theorem bitAt_one (b : Bool) : bitAt b 1 = if b then 0x02 else 0 := by cases b <;> rfl
theorem bitAt_four (b : Bool) : bitAt b 4 = if b then 0x10 else 0 := by cases b <;> rfl
theorem bitAt_five (b : Bool) : bitAt b 5 = if b then 0x20 else 0 := by cases b <;> rfl
theorem bitAt_six (b : Bool) : bitAt b 6 = if b then 0x40 else 0 := by cases b <;> rfl
theorem bitAt_seven (b : Bool) : bitAt b 7 = if b then 0x80 else 0 := by cases b <;> rfl

/-- Four bytes are the two of the upper half and the two of the lower. -/
theorem bytes32_eq (w : BitVec 32) :
    bytes32 w = bytes16 (w.extractLsb' 16 16) ++ bytes16 (w.extractLsb' 0 16) := by
  have hupper (i : Nat) (h : i + 8 ≤ 16) : (w.extractLsb' 16 16).extractLsb' i 8 = w.extractLsb' (16 + i) 8 := by
    ext j hj
    simp [show i + j < 16 by omega, Nat.add_assoc]
  have hlower (i : Nat) (h : i + 8 ≤ 16) : (w.extractLsb' 0 16).extractLsb' i 8 = w.extractLsb' i 8 := by
    ext j hj
    simp [show i + j < 16 by omega]
  simp only [bytes32, bytes16, hupper 8 (by omega), hupper 0 (by omega), hlower 8 (by omega), hlower 0 (by omega)]
  rfl

/-! ## READ STATE (R163) -/

/-- The kind of round: none outside QUIET, OFFER and CONFIRM (R63). -/
theorem roundKind_code (s : State) : byteOf s.roundKind.code =
    if s.comp.state ∈ [CompState.quiet, .offer, .confirm] then
      (if s.comp.current.map Roster.status = some .limp then 2 else 1) else 0 := by
  have hlimp : s.currentIsLimp = decide (s.comp.current.map Roster.status = some .limp) := by
    unfold State.currentIsLimp
    cases s.comp.current <;> simp
  have hround : s.roundRunning = decide (s.comp.state ∈ [CompState.quiet, .offer, .confirm]) := by
    unfold State.roundRunning
    cases s.comp.state <;> rfl
  unfold State.roundKind
  rw [hlimp, hround]
  simp only [decide_eq_true_eq]
  split_ifs <;> rfl

theorem record_length (s : State) : s.record.length = 63 := by
  unfold State.record
  cases s.port.image <;> rfl

/-- The seven bytes of an end, each from its table (section 10.3.3). -/
theorem endBytes_eq (s : State) (e : End) : s.endBytes e =
    [byteOf ([DecState.openLine, .acquiring, .held, .parting, .fault, .isolated].idxOf (s.chain e).dec.state),
     byteOf ([none, some FaultReason.unclear, some .stuckHigh].idxOf (s.chain e).dec.fault),
     byteOf ([EndState.openEnd, .held, .parting, .fault, .isolated].idxOf (s.report e).state),
     (if (s.chain e).drv.saturated then 0x80 else 0) |||
       byteOf (32 * [none, some End.a, some .b].idxOf (s.report e).facing + (s.report e).count % 32),
     byteOf (s.chain e).drv.loaded, byteOf (s.chain e).drv.pending,
     (if (s.chain e).dec.state = .isolated then 0x01 else 0) |||
       (if (s.chain e).release then 0x02 else 0)] := by
  simp only [State.endBytes, EndPair.bytes, State.endPair, DecState.code_eq, faultCode_eq, EndState.code_eq,
    facingCode_eq, bitAt_seven, bitAt_zero, bitAt_one, decide_eq_true_eq, List.cons_append, List.nil_append]

/-! ## READ ROSTER (R113) -/

theorem roster_header (r : Roster) : r.header =
    [r.epoch.extractLsb' 8 8, r.epoch.extractLsb' 0 8, r.tag.extractLsb' 8 8, r.tag.extractLsb' 0 8,
     r.digest.extractLsb' 24 8, r.digest.extractLsb' 16 8, r.digest.extractLsb' 8 8,
     r.digest.extractLsb' 0 8, byteOf r.n, byteOf r.ownPos,
     byteOf r.status.code ||| (if r.cabConflict then 0x10 else 0) |||
       (if r.noCab then 0x20 else 0) ||| (if r.split then 0x40 else 0),
     byteOf (16 * r.jointGrade.code + r.jointPayload.code)] := by
  simp only [Roster.header, bytes16, bytes32, bitAt_four, bitAt_five, bitAt_six, List.cons_append, List.nil_append]

theorem rosterEntry_heard_bytes (id : Identity) (o : Orientation) (cab : CabField) (c : Grade) (m : PayloadMax) :
    (RosterEntry.heard id o cab c m).bytes =
      [0x80 ||| (if o = .reversed then 0x40 else 0) ||| byteOf (16 * c.code + 4 * m.code + cab.code),
       id.extractLsb' 24 8, id.extractLsb' 16 8, id.extractLsb' 8 8, id.extractLsb' 0 8] := by
  cases o <;> rfl

theorem readRosterCommand_cons {b : Byte} {more : List Byte} (hs : s.port.part ≠ .unconfigured) :
    s.readRosterCommand (b :: more) =
      if b.toNat = 0 then s.answerRoster s.comp.current
      else if b.toNat = 1 then s.answerRoster s.comp.previous
      else s.refuse .badParameter := by
  unfold State.readRosterCommand
  rw [if_pos (started_iff.mpr hs)]

/-- The slot that READ ROSTER's parameter names. -/
theorem readRosterCommand_slot {b : Byte} {more : List Byte} {r : Option Roster} (hs : s.port.part ≠ .unconfigured)
    (h : (b.toNat = 0 ∧ s.comp.current = r) ∨ (b.toNat = 1 ∧ s.comp.previous = r)) :
    s.readRosterCommand (b :: more) = s.answerRoster r := by
  rw [readRosterCommand_cons hs]
  obtain ⟨hb, rfl⟩ | ⟨hb, rfl⟩ := h
  · rw [if_pos hb]
  · rw [if_neg (by omega), if_pos hb]

/-- Settles O12: the slot that READ ROSTER names, the record block by block, and the flags that READ EVENTS
clears. -/
theorem rosterStateAndEventsAreRead : Obligations.RosterStateAndEventsAreRead := by
  refine ⟨fun s mosi hready hpart => ⟨fun hlen => ?_, fun b more hbytes => ⟨fun r hr => ?_, fun hr => ?_, fun hb => ?_⟩⟩,
    fun s mosi hready => ?_, fun s => ⟨record_length s, ?_⟩, fun s mosi hready => ⟨_, rfl, ?_, ?_⟩⟩
  · refine congrArg Host.Outcome.next (takeCommand_refused hready .badParameter ?_)
    rw [wholeBytes_nil hlen, List.take_nil, State.readRosterCommand, clockOut_started,
      if_pos (started_iff.mpr hpart)]
  · refine congrArg Host.Outcome.next (takeCommand_answered hready fun u hu => ?_)
    rw [hbytes, List.take_succ_cons, hu, readRosterCommand_slot (s := s.clockOut _ _) hpart hr]
    refine congrArg (fun data => (s.clockOut (8 + mosi.length) [], Answer.done.byte :: data)) ?_
    refine congrArg₂ (· ++ ·) (roster_header r) (congrArg (fun f => r.entries.flatMap f) (funext fun x => ?_))
    cases x with
    | silent => rfl
    | heard id o cab c m => exact rosterEntry_heard_bytes id o cab c m
  · refine congrArg Host.Outcome.next (takeCommand_refused hready .empty ?_)
    rw [hbytes, List.take_succ_cons, readRosterCommand_slot (s := s.clockOut _ _) hpart hr]
    rfl
  · refine congrArg Host.Outcome.next (takeCommand_refused hready .badParameter ?_)
    rw [hbytes, List.take_succ_cons, readRosterCommand_cons (s := s.clockOut _ _) hpart, if_neg (by omega),
      if_neg (by omega)]
  · exact congrArg Host.Outcome.next (takeCommand_answered hready fun u hu => hu ▸ rfl)
  · simp only [State.record, endBytes_eq, roundKind_code, Reason.code_eq, CompState.code_eq, Ctrl.code_eq,
      Grade.code_eq, PartState.code_eq, CabSetting.code_eq]
    cases s.port.image with
    | none => rfl
    | some i =>
      simp only [imageBytes, bytes32_eq, PayloadMax.code_eq, CabEnds.code_eq]
      rfl
  · rw [takeCommand_ready hready, clockOut_zeros]
    rfl
  · rw [takeCommand_ready hready]
    simp [State.readEventsCommand, State.done, State.intn, State.leaveAnswer]

end Sys2Proof.Machine
end

section
/-! The transactions of the local port, the refusals of its commands, and the hardware reset (R149 to R155, R165). -/

namespace Sys2Proof.Machine

variable {s t : State} {mosi : List Bool} {c : Instr} {x : Transfer}

/-! ## The rows of the port -/

/-- What each command of the port does once it is taken. -/
def commandRun : Instr → List Byte → State → State × List Byte
  | .configure _ => State.configure
  | .start _ => State.startCommand
  | .restart _ => State.restartCommand
  | .setCab _ => State.setCabCommand
  | .isolate _ => State.isolateCommand
  | .recompose _ => State.recomposeCommand
  | .submit _ => State.submitCommand
  | .withdraw _ => State.withdrawCommand
  | .take _ => State.takeArrival
  | .readOutcomes _ => State.readOutcomesCommand
  | .readRoster _ => State.readRosterCommand
  | .readState _ => State.readStateCommand
  | .readEvents _ => State.readEventsCommand
  | _ => fun _ s => s.done []

/-- A command is taken by what `commandRun` names. -/
theorem exec_command (h : commandTransfer c = some x) : exec c s = .next (s.takeCommand x (commandRun c)) := by
  cases c <;> cases h <;> rfl

theorem exec_commandBits (h : commandBits c = some mosi) :
    exec c s = .next (s.takeCommand (.csnRises mosi) (commandRun c)) := by
  obtain ⟨x, hx, hcarried⟩ := Option.bind_eq_some_iff.mp h
  cases x with
  | csnRises bits => cases hcarried; exact exec_command hx
  | csnFalls => cases hcarried
  | statusRead n => cases hcarried

/-- Every row of the port acts through a transfer. -/
theorem exec_port (h : portTransfer c = some x) : ∃ run, exec c s = .next (s.transfer x run) := by
  cases hc : commandTransfer c with
  | some y =>
    have hxy : y = x := by
      cases c <;> cases hc <;> cases h <;> rfl
    rw [hxy] at hc
    exact ⟨_, exec_command hc⟩
  | none =>
    cases c <;> cases hc <;> cases h <;> exact ⟨_, rfl⟩

/-! ## Bits and bytes -/

theorem bitsOf_eight (b : Byte) : bitsOf 8 b.toNat =
    [b.getLsbD 7, b.getLsbD 6, b.getLsbD 5, b.getLsbD 4, b.getLsbD 3, b.getLsbD 2, b.getLsbD 1, b.getLsbD 0] := rfl

/-- The bits of an incomplete last byte are discarded. -/
theorem wholeBytes_bitsOfBytes (data : List Byte) {tail : List Bool} (h : tail.length < 8) :
    wholeBytes (bitsOfBytes data ++ tail) = data := by
  have hlen : (bitsOfBytes data ++ tail).length / 8 = data.length := by
    rw [List.length_append, length_bitsOfBytes]
    omega
  rw [wholeBytes, hlen, bytesOfBits_bitsOfBytes]

theorem wholeBytes_code (code : Byte) (data : List Byte) {tail : List Bool} (h : tail.length < 8) :
    wholeBytes (bitsOf 8 code.toNat ++ (bitsOfBytes data ++ tail)) = code :: data := by
  rw [← List.append_assoc]
  exact wholeBytes_bitsOfBytes (code :: data) h

/-- The events of a transaction whose code names a row. -/
theorem transactionEvents_row {code : Byte} {data : List Byte} {row : Transfer → Instr}
    (hbytes : wholeBytes (bitsOf 8 code.toNat ++ mosi) = code :: data) (hrow : rowOfCode code = some row) :
    transactionEvents (bitsOf 8 code.toNat ++ mosi) = [row .csnFalls, row (.csnRises mosi)] := by
  have hdrop : (bitsOf 8 code.toNat ++ mosi).drop 8 = mosi := List.drop_left' (length_bitsOf 8 _)
  simp [transactionEvents, decodeTransaction, hbytes, hrow, hdrop]

theorem transactionEvents_unknown {code : Byte} {data : List Byte} (hbytes : wholeBytes mosi = code :: data)
    (hrow : rowOfCode code = none) :
    transactionEvents mosi = [Instr.readAnswer .csnFalls, .readAnswer (.statusRead mosi.length)] := by
  simp [transactionEvents, decodeTransaction, hbytes, hrow]

theorem transactionEvents_short (h : mosi.length < 8) :
    transactionEvents mosi = [Instr.readAnswer .csnFalls, .readAnswer (.statusRead mosi.length)] := by
  simp [transactionEvents, decodeTransaction, wholeBytes_nil h]

theorem statusByte_bits (s : State) :
    s.statusByte.getLsbD 7 = s.port.answerReady ∧
    s.statusByte.getLsbD 6 = decide (s.port.flags &&& s.port.mask ≠ 0) ∧
    s.statusByte.extractLsb' 4 2 = BitVec.ofNat 2 s.port.part.code ∧
    s.statusByte.getLsbD 3 = s.port.overrun ∧ s.statusByte.extractLsb' 0 3 = 0 := by
  have hintn : s.intn = decide (s.port.flags &&& s.port.mask ≠ 0) := rfl
  rw [← hintn, State.statusByte]
  generalize s.port.answerReady = ready, s.intn = intn, s.port.part = part, s.port.overrun = overrun
  cases part <;> cases ready <;> cases intn <;> cases overrun <;> decide

/-- The bits behind the status byte: the bytes to send, and then zeros. -/
theorem clockOut_bytes {b : Byte} (hb : s.port.csn = some b) (n : Nat) (a : List Byte) :
    s.clockOut (8 + n) a = { s with port := { s.port with
      csn := none
      miso := bitsOf 8 b.toNat ++ (bitsOfBytes a).take n ++ List.replicate (n - 8 * a.length) false } } := by
  rw [clockOut_eq, padTo_cons, hb, padTo, length_bitsOfBytes, List.append_assoc]
  rfl

theorem clockOut_status {b : Byte} (hb : s.port.csn = some b) (n : Nat) :
    s.clockOut n [] = { s with port := { s.port with
      csn := none
      miso := (bitsOf 8 b.toNat).take n ++ List.replicate (n - 8) false } } := by
  rw [clockOut_eq, hb]
  rfl

theorem readAnswer_sends {b : Byte} (hb : s.port.csn = some b) :
    exec (.readAnswer (.csnRises mosi)) s = .next { s with port := { s.port with
      csn := none
      miso := bitsOf 8 b.toNat ++ (bitsOfBytes s.answerBytes).take mosi.length ++
        List.replicate (mosi.length - 8 * s.answerBytes.length) false } } := by
  refine congrArg Host.Outcome.next ?_
  rw [transfer_rises (by rw [hb]; rfl), clockOut_bytes hb]

theorem answerBytes_none (h : s.port.busy = true ∨ s.port.answer = none) : s.answerBytes = [0xFF] := by
  unfold State.answerBytes
  split_ifs with hbusy
  · rfl
  · rw [h.resolve_left hbusy]
    rfl

theorem answerBytes_some {a : List Byte} (hbusy : s.port.busy = false) (ha : s.port.answer = some a) :
    s.answerBytes = a := by
  simp [State.answerBytes, hbusy, ha]

/-- READ ANSWER leaves the overrun mark. -/
theorem readAnswer_overrun (h : exec (.readAnswer x) s = .next t) : t.port.overrun = s.port.overrun := by
  obtain rfl := Host.Outcome.next.inj h
  cases x with
  | csnFalls =>
    rw [State.transfer, State.csnFalls]
    split_ifs <;> rfl
  | csnRises bits =>
    rw [State.transfer]
    split_ifs <;> rfl
  | statusRead n =>
    rw [State.transfer]
    split_ifs <;> rfl

/-- Settles O13, by the transfer of each row and by the codec of bits and bytes. -/
theorem transactionsClockOut : Obligations.TransactionsClockOut := by
  refine ⟨statusByte_bits, fun c s hc => ⟨fun hout => ?_, fun hin => ?_⟩, fun c x s hc hx hnone => ?_,
    fun c s n b hc hb => ?_, fun s mosi b hb => ⟨fun a hbusy ha => ?_, fun hnone => ?_⟩, bitsOf_eight,
    fun code data tail htail => ⟨wholeBytes_bitsOfBytes data htail,
      fun row hrow => transactionEvents_row (wholeBytes_code code data htail) hrow, fun hrow => ⟨.readAnswer, ?_⟩,
      ⟨_, transactionEvents_short htail⟩⟩,
    fun s hbusy => ⟨fun c mosi hcsn hc => ?_, fun x t h => readAnswer_overrun h, ?_⟩⟩
  · obtain ⟨run, hrun⟩ := exec_port (s := s) hc
    rw [hrun, State.transfer, csnFalls_eq hout]
  · obtain ⟨run, hrun⟩ := exec_port (s := s) hc
    rw [hrun, State.transfer, csnFalls_inReset hin]
  · obtain ⟨run, hrun⟩ := exec_port (s := s) hc
    rw [hrun, transfer_none hnone hx]
  · obtain ⟨run, hrun⟩ := exec_port (s := s) hc
    rw [hrun, State.transfer, if_pos (by rw [hb]; rfl), clockOut_status hb]
  · rw [readAnswer_sends hb, answerBytes_some hbusy ha]
  · rw [readAnswer_sends hb, answerBytes_none hnone]
  · rw [transactionEvents_unknown (wholeBytes_code code data htail) hrow, List.length_append, length_bitsOf]
  · obtain hc | rfl := hc
    · rw [exec_commandBits hc, takeCommand_busy hcsn hbusy]
    · refine congrArg Host.Outcome.next ?_
      rw [transfer_rises hcsn, if_pos hbusy, clockOut_zeros]
      rfl
  · refine congrArg Host.Outcome.next ?_
    rw [if_pos hbusy]
    rfl

/-! ## Refusals (R154) -/

/-- A command's end: DONE with some data, or a refusal, which changes nothing. -/
def DoneOrRefused (s : State) (r : State × List Byte) : Prop :=
  (∃ t data, r = State.done data t) ∨ ∃ a, r = s.refuse a

theorem DoneOrRefused.done (t : State) (data : List Byte) : DoneOrRefused s (t.done data) := .inl ⟨t, data, rfl⟩

theorem DoneOrRefused.refuse (a : Answer) : DoneOrRefused s (s.refuse a) := .inr ⟨a, rfl⟩

theorem configure_ends (p : List Byte) (s : State) : DoneOrRefused s (s.configure p) := by
  unfold State.configure
  split
  · exact .refuse _
  · split
    · split_ifs
      · exact .refuse _
      · exact .refuse _
      · split
        · exact .done _ _
        · exact .refuse _
    · exact .refuse _

theorem setCabCommand_ends (p : List Byte) (s : State) : DoneOrRefused s (s.setCabCommand p) := by
  unfold State.setCabCommand
  split
  · split
    · split
      · split_ifs
        · exact .done _ _
        · exact .refuse _
      · exact .refuse _
    · exact .refuse _
  · exact .refuse _

theorem isolateCommand_ends (p : List Byte) (s : State) : DoneOrRefused s (s.isolateCommand p) := by
  unfold State.isolateCommand
  split
  · split
    · split
      · exact .refuse _
      · split_ifs
        · exact .done _ _
        · exact .done _ _
        · exact .refuse _
    · exact .refuse _
  · exact .refuse _

theorem submitChecks_ends (mode : Byte) (v : BitVec 32) (urgency lifetime len : Byte) (rest : List Byte) (s : State) :
    DoneOrRefused s (s.submitChecks mode v urgency lifetime len rest) := by
  unfold State.submitChecks
  split
  · exact .refuse _
  · split_ifs
    · exact .refuse _
    · exact .refuse _
    · exact .refuse _
    · exact .done _ _

theorem submitCommand_ends (p : List Byte) (s : State) : DoneOrRefused s (s.submitCommand p) := by
  unfold State.submitCommand
  split
  · split
    · split_ifs
      · exact .refuse _
      · exact submitChecks_ends _ _ _ _ _ _ s
    · exact .refuse _
  · exact .refuse _

theorem withdrawCommand_ends (p : List Byte) (s : State) : DoneOrRefused s (s.withdrawCommand p) := by
  unfold State.withdrawCommand State.withdrawTicket
  split
  · split
    · split
      · exact .refuse _
      · split_ifs
        · exact .refuse _
        · exact .done _ _
    · exact .refuse _
  · exact .refuse _

theorem takeArrival_ends (p : List Byte) (s : State) : DoneOrRefused s (s.takeArrival p) := by
  unfold State.takeArrival
  split
  · split
    · exact .refuse _
    · exact .done _ _
  · exact .refuse _

theorem readOutcomesCommand_ends (p : List Byte) (s : State) : DoneOrRefused s (s.readOutcomesCommand p) := by
  unfold State.readOutcomesCommand
  split
  · split
    · exact .refuse _
    · exact .done _ _
  · exact .refuse _

theorem answerRoster_ends (r : Option Roster) (s : State) : DoneOrRefused s (s.answerRoster r) := by
  unfold State.answerRoster
  split
  · exact .done _ _
  · exact .refuse _

theorem readRosterCommand_ends (p : List Byte) (s : State) : DoneOrRefused s (s.readRosterCommand p) := by
  unfold State.readRosterCommand
  split
  · split
    · split_ifs
      · exact answerRoster_ends _ _
      · exact answerRoster_ends _ _
      · exact .refuse _
    · exact .refuse _
  · exact .refuse _

theorem startCommand_ends (p : List Byte) (s : State) : DoneOrRefused s (s.startCommand p) := by
  unfold State.startCommand
  split_ifs
  · exact .refuse _
  · exact .refuse _
  · exact .done _ _

theorem restartCommand_ends (p : List Byte) (s : State) : DoneOrRefused s (s.restartCommand p) := by
  unfold State.restartCommand
  split_ifs
  · exact .done _ _
  · exact .refuse _

theorem recomposeCommand_ends (p : List Byte) (s : State) : DoneOrRefused s (s.recomposeCommand p) := by
  unfold State.recomposeCommand
  split_ifs
  · exact .done _ _
  · exact .refuse _

theorem commandRun_ends (c : Instr) (p : List Byte) (s : State) : DoneOrRefused s (commandRun c p s) := by
  unfold commandRun
  split
  · exact configure_ends p s
  · exact startCommand_ends p s
  · exact restartCommand_ends p s
  · exact setCabCommand_ends p s
  · exact isolateCommand_ends p s
  · exact recomposeCommand_ends p s
  · exact submitCommand_ends p s
  · exact withdrawCommand_ends p s
  · exact takeArrival_ends p s
  · exact readOutcomesCommand_ends p s
  · exact readRosterCommand_ends p s
  · exact .done _ _
  · exact .done _ _
  · exact .done _ _

/-- A command not available in the part state is refused with NOT NOW (R155). -/
theorem commandRun_unavailable {p : List Byte} (h : availableIn c s.port.part = false) :
    commandRun c p s = s.refuse .notNow := by
  cases c with
  | configure x => exact if_pos (started_iff.mpr (by simpa [availableIn] using h))
  | start x => exact if_pos (started_iff.mpr (by simpa [availableIn] using h))
  | restart x => exact if_neg (by simpa [availableIn, State.started] using h)
  | isolate x => exact if_neg (by simpa [availableIn, State.started] using h)
  | withdraw x => exact if_neg (by simpa [availableIn, State.started] using h)
  | take x => exact if_neg (by simpa [availableIn, State.started] using h)
  | readOutcomes x => exact if_neg (by simpa [availableIn, State.started] using h)
  | readRoster x => exact if_neg (by simpa [availableIn, State.started] using h)
  | setCab x => exact if_neg (by simpa [availableIn, State.running] using h)
  | recompose x => exact if_neg (by simpa [availableIn, State.running] using h)
  | submit x => exact if_neg (by simpa [availableIn, State.running] using h)
  | _ => cases h

theorem startCommand_noImage {p : List Byte} (h : s.port.image = none) : s.startCommand p = s.refuse .notNow := by
  unfold State.startCommand
  split
  · rfl
  · rw [h]
    rfl

/-- Settles O14: a command is done or refused, and one that is not available is refused. -/
theorem refusedCommandsChangeNothing : Obligations.RefusedCommandsChangeNothing := by
  refine ⟨fun c mosi s t code data hc hready ht hanswer hcode => ?_, fun c mosi s hc hready h => ?_⟩
  · rw [exec_commandBits hc] at ht
    obtain rfl := Host.Outcome.next.inj ht
    obtain ⟨u, done, hdone⟩ | ⟨a, ha⟩ :=
      commandRun_ends c ((wholeBytes mosi).take 160) (s.clockOut (8 + mosi.length) [])
    · rw [takeCommand_done hready hdone] at hanswer
      obtain ⟨rfl, -⟩ := List.cons.inj (Option.some.inj hanswer)
      exact absurd rfl hcode
    · rw [takeCommand_refused hready a ha] at hanswer ⊢
      obtain ⟨rfl, rfl⟩ := List.cons.inj (Option.some.inj hanswer)
      exact ⟨rfl, rfl⟩
  · rw [exec_commandBits hc]
    refine congrArg Host.Outcome.next (takeCommand_refused hready .notNow ?_)
    obtain h | ⟨rfl, himage⟩ := h
    · exact commandRun_unavailable h
    · exact startCommand_noImage (s := s.clockOut (8 + mosi.length) []) (p := (wholeBytes mosi).take 160) himage

/-! ## HARDWARE RESET -/

theorem drivePin_reset (e : End) (h : s.port.part = .unconfigured) : s.drivePin e = false := by
  simp [State.drivePin, State.driveHold, not_started h]

theorem intn_of_no_flag (h : s.port.flags = 0) : s.intn = false := by simp [State.intn, h]

/-- Settles O15: the reset values, edge by edge. -/
theorem hardwareResetValues : Obligations.HardwareResetValues := by
  refine ⟨fun s edge hedge => ?_, fun s => rfl⟩
  cases edge with
  | resetnRises => exact absurd rfl hedge
  | powerOn =>
    refine ⟨_, rfl, rfl, rfl, rfl, rfl, rfl, rfl, rfl, rfl, rfl, rfl, rfl, intn_of_no_flag rfl, rfl, rfl, rfl, rfl, rfl, rfl, rfl, rfl,
      rfl, rfl, rfl, rfl, rfl, rfl, rfl, rfl, rfl, rfl, rfl, fun e => ?_⟩
    cases e <;> exact ⟨rfl, rfl, rfl, drivePin_reset _ rfl⟩
  | resetnFalls =>
    refine ⟨_, rfl, rfl, rfl, rfl, rfl, rfl, rfl, rfl, rfl, rfl, rfl, rfl, intn_of_no_flag rfl, rfl, rfl, rfl, rfl, rfl, rfl, rfl, rfl,
      rfl, rfl, rfl, rfl, rfl, rfl, rfl, rfl, rfl, rfl, rfl, fun e => ?_⟩
    cases e <;> exact ⟨rfl, rfl, rfl, drivePin_reset _ rfl⟩

end Sys2Proof.Machine
end

section
/-! What a change of a chain unit leaves behind, said once: the drive generator, the flags, the other end and the
trigger (R4, R6, R21 to R23). -/

namespace Sys2Proof.Machine

variable {s t : State}

/-! ## Notices -/

theorem flagSet_notify (n : Notice) (s : State) : (s.notify n).flagSet n = true := by
  simp only [State.flagSet, State.notify, State.setPort_port, BitVec.getLsbD_or]
  cases n <;> simp [Notice.flag, Notice.bit]

theorem flagSet_of_gains {n : Notice} (h : s.port.gains t.port) (hs : s.flagSet n = true) : t.flagSet n = true :=
  flagSet_of_flags h.2 n hs

/-! ## Triggers

A trigger touches the composition engine and its slot alone. -/

theorem changeEpoch_bus (e : Epoch) (s : State) : (s.changeEpoch e).bus = { s.bus with slot := none } :=
  congrArg State.bus (changeEpoch_rest e s)

theorem changeEpoch_outside (e : Epoch) (s : State) :
    s.changeEpoch e = { s with comp := (s.changeEpoch e).comp, bus := (s.changeEpoch e).bus } := by
  rw [changeEpoch_bus]
  exact changeEpoch_rest e s

theorem trigger_outside (r : Reason) (s : State) :
    s.trigger r = { s with comp := (s.trigger r).comp, bus := (s.trigger r).bus } := by
  unfold State.trigger
  split
  · split
    · exact changeEpoch_outside _ (s.recordReason r)
    · rfl
  · rfl
  · split
    · rfl
    · exact changeEpoch_outside _ (s.recordReason r)
  all_goals exact changeEpoch_outside _ (s.recordReason r)

theorem trigger_bus_cases (r : Reason) (s : State) :
    (s.trigger r).bus = s.bus ∨ (s.trigger r).bus = { s.bus with slot := none } := by
  unfold State.trigger
  split
  · split
    · exact .inr (changeEpoch_bus _ (s.recordReason r))
    · exact .inl rfl
  · exact .inl rfl
  · split
    · exact .inl rfl
    · exact .inr (changeEpoch_bus _ (s.recordReason r))
  all_goals exact .inr (changeEpoch_bus _ (s.recordReason r))

theorem trigger_bus (r : Reason) (s : State) :
    (s.trigger r).bus = { s.bus with slot := (s.trigger r).bus.slot } := by
  obtain h | h := trigger_bus_cases r s <;> rw [h]

theorem trigger_port (r : Reason) (s : State) : (s.trigger r).port = s.port := by rw [trigger_outside]

/-- In QUIET a chain change restarts the hold and keeps the epoch (R67). -/
theorem trigger_quiet {r : Reason} (hs : s.comp.state = .quiet) (hr : r = .chain ∨ r = .parting) :
    s.trigger r = s.setComp { s.comp with reason := r, holdDue := some (s.now + 320000) } := by
  unfold State.trigger
  split
  case h_3 => exact if_pos hr
  all_goals simp_all

theorem trigger_halted {r : Reason} (hs : s.comp.state = .halted) : s.trigger r = s := by
  simp only [State.trigger, hs]

/-! ## The drive generator -/

/-- The drive condition of an end, by its unit (R6). -/
def holdOf (started : Bool) (u : ChainUnit) : Option Bool :=
  if !started then some false
  else if u.dec.state = .isolated then some false
  else if u.release then some true
  else none

theorem driveHold_eq (s : State) (e : End) : s.driveHold e = holdOf s.started (s.chain e) := rfl

/-- What a drive condition makes of the generator (R6). -/
def Drive.sync (hold : Option Bool) (t : Ticks) (d : Drive) : Drive :=
  match hold, d.periodFrom with
  | some _, _ => { d with periodFrom := none }
  | none, none => { d with loaded := d.pending, periodFrom := some t }
  | none, some _ => d

theorem syncDrive_eq (e : End) (s : State) :
    s.syncDrive e = s.setChain e { s.chain e with drv := (s.chain e).drv.sync (s.driveHold e) s.now } := by
  unfold State.syncDrive Drive.sync
  dsimp only
  cases s.driveHold e with
  | some level => rfl
  | none =>
    cases hp : (s.chain e).drv.periodFrom with
    | none => rfl
    | some w => exact (State.setChain_self s e).symm

theorem Drive.sync_held {level : Bool} (t : Ticks) (d : Drive) :
    d.sync (some level) t = { d with periodFrom := none } := rfl

theorem Drive.sync_begins {d : Drive} (t : Ticks) (h : d.periodFrom = none) :
    d.sync none t = { d with loaded := d.pending, periodFrom := some t } := by simp only [Drive.sync, h]

theorem Drive.sync_runs {d : Drive} (t : Ticks) (h : d.periodFrom.isSome = true) : d.sync none t = d := by
  unfold Drive.sync
  split
  · contradiction
  · simp_all
  · rfl

/-- A generator that agrees with its drive condition keeps on under it. -/
theorem Drive.sync_same {d : Drive} {hold : Option Bool} (t : Ticks) (h : d.periodFrom.isSome = hold.isNone) :
    d.sync hold t = d := by
  cases hold with
  | none => exact Drive.sync_runs t h
  | some level =>
    rw [Drive.sync_held]
    obtain ⟨pending, loaded, saturated, periodFrom⟩ := d
    cases periodFrom
    · rfl
    · cases h

/-- A unit put at an end, with the drive condition that it makes. -/
def State.unitAfter (s : State) (v : ChainUnit) : ChainUnit :=
  { v with drv := v.drv.sync (holdOf s.started v) s.now }

/-- The state with a unit put at an end. -/
def State.putUnit (e : End) (v : ChainUnit) (s : State) : State := s.setChain e (s.unitAfter v)

theorem syncDrive_setChain (e : End) (v : ChainUnit) (s : State) : (s.setChain e v).syncDrive e = s.putUnit e v := by
  rw [syncDrive_eq, driveHold_eq, State.chain_setChain_same, setChain_started, State.setChain_now]
  cases e <;> rfl

theorem reportOf_congr {started : Bool} {u v : ChainUnit} (hdec : v.dec = u.dec) (hrelease : v.release = u.release) :
    reportOf started v = reportOf started u := by
  simp only [reportOf, hdec, hrelease]

@[simp] theorem putUnit_chain (e : End) (v : ChainUnit) (s : State) : (s.putUnit e v).chain e = s.unitAfter v :=
  State.chain_setChain_same _ _ _

@[simp] theorem putUnit_chain_other (e : End) (v : ChainUnit) (s : State) :
    (s.putUnit e v).chain e.other = s.chain e.other := setChain_chain_ne (by simp) _ s

@[simp] theorem putUnit_report (e : End) (v : ChainUnit) (s : State) :
    (s.putUnit e v).report e = reportOf s.started v := by
  unfold State.report
  rw [putUnit_chain, State.putUnit, setChain_started]
  exact reportOf_congr rfl rfl

/-! ## The chain change -/

/-- The flags that a change of a report sets (R23). -/
def chainFlags (before after : Triple) : BitVec 15 :=
  if after = before then 0#15 else if chainReason before after = .parting then 0x000C else 0x0004

/-- The drive generator of the other end, which follows a count (R4). -/
def ChainUnit.followed (u : ChainUnit) (count : Nat) : ChainUnit :=
  { u with drv := { u.drv with pending := min 16 (1 + count), saturated := decide (16 < 1 + count) } }

theorem followed_eq (u : ChainUnit) (count : Nat) : { u with drv := u.drv.follow count } = u.followed count := by
  simp [ChainUnit.followed, Drive.follow, Nat.add_comm]

theorem followed_of_follows {u : ChainUnit} {count : Nat} (h : u.drv.Follows count) (hcount : count ≤ 16) :
    u.followed count = u := by
  obtain ⟨hpending, hsaturated⟩ := h
  have hmark : decide (16 < 1 + count) = decide (count = 16) := decide_eq_decide.mpr (by omega)
  rw [ChainUnit.followed, hmark, ← hpending, ← hsaturated]

/-- The other end and the notices at a change of an end's report, before the trigger. -/
def State.chainNotified (e : End) (before : Triple) (s : State) : State :=
  { s.setChain e.other ((s.chain e.other).followed (s.report e).count) with
    port := { s.port with flags := s.port.flags ||| chainFlags before (s.report e) } }

theorem chainReason_cases (before after : Triple) :
    chainReason before after = .chain ∨ chainReason before after = .parting := by
  unfold chainReason
  split_ifs <;> simp

theorem chainChanged_same {e : End} {before : Triple} (h : s.report e = before) : s.chainChanged e before = s :=
  if_pos h

theorem chainChanged_ne {e : End} {before : Triple} (h : s.report e ≠ before) :
    s.chainChanged e before = (s.chainNotified e before).trigger (chainReason before (s.report e)) := by
  unfold State.chainChanged State.chainNotified chainFlags
  dsimp only
  rw [if_neg h, if_neg h, followed_eq]
  unfold chainReason
  by_cases hparting : (s.report e).state = .parting ∧ before.state ≠ .parting
  · simp only [hparting, decide_true, Bool.and_self, State.notifyIf, State.notify, State.setPort, State.setChain_port,
      if_true, BitVec.or_assoc, not_false_eq_true, and_self, ne_eq]
    cases e <;> rfl
  · have hno : (decide ((s.report e).state = .parting) && decide (before.state ≠ .parting)) = false := by
      simpa using hparting
    simp only [hno, hparting, State.notifyIf, State.notify, State.setPort, State.setChain_port, if_false]
    cases e <;> rfl

theorem chainNotified_chain (e : End) (before : Triple) (s : State) : (s.chainNotified e before).chain e = s.chain e :=
  by cases e <;> rfl

theorem chainNotified_other (e : End) (before : Triple) (s : State) :
    (s.chainNotified e before).chain e.other = (s.chain e.other).followed (s.report e).count := by cases e <;> rfl

theorem trigger_chain (r : Reason) (s : State) (e : End) : (s.trigger r).chain e = s.chain e :=
  (trigger_engineStep r s).chain e

theorem chainChanged_chain (e : End) (before : Triple) (s : State) :
    (s.chainChanged e before).chain e = s.chain e := by
  by_cases h : s.report e = before
  · rw [chainChanged_same h]
  · rw [chainChanged_ne h, trigger_chain, chainNotified_chain]

theorem chainChanged_port (e : End) (before : Triple) (s : State) :
    (s.chainChanged e before).port = { s.port with flags := s.port.flags ||| chainFlags before (s.report e) } := by
  by_cases h : s.report e = before
  · rw [chainChanged_same h, chainFlags, if_pos h, BitVec.or_zero]
  · rw [chainChanged_ne h, trigger_port]
    rfl

theorem chainChanged_report (e : End) (before : Triple) (s : State) :
    (s.chainChanged e before).report e = s.report e := by
  unfold State.report State.started
  rw [chainChanged_chain, chainChanged_port]

/-- The trigger of a chain change has been taken: what it makes of the engine in each of its states. -/
theorem chainChanged_trigger {e : End} {before : Triple} (h : s.report e ≠ before) :
    (s.comp.state = .quiet → (s.chainChanged e before).bus = s.bus ∧
      (s.chainChanged e before).comp = { s.comp with
        reason := chainReason before (s.report e), holdDue := some (s.now + 320000) }) ∧
    (s.comp.state = .offer ∨ s.comp.state = .confirm ∨ s.comp.state = .settled ∨ s.comp.state = .limp →
      NewRound { s.chainChanged e before with comp := s.comp, bus := s.bus } (s.chainChanged e before)
        (s.comp.epoch + 1) (chainReason before (s.report e))) ∧
    (s.comp.state = .halted → (s.chainChanged e before).comp = s.comp ∧ (s.chainChanged e before).bus = s.bus) := by
  have hcomp : (s.chainNotified e before).comp = s.comp := by cases e <;> rfl
  have hbus : (s.chainNotified e before).bus = s.bus := by cases e <;> rfl
  have hnow : (s.chainNotified e before).now = s.now := by cases e <;> rfl
  rw [chainChanged_ne h]
  refine ⟨fun hs => ?_, fun hs => ?_, fun hs => ?_⟩
  · rw [trigger_quiet (by rw [hcomp]; exact hs) (chainReason_cases _ _), State.setComp_bus, State.setComp_comp,
      hcomp, hbus, hnow]
    exact ⟨rfl, rfl⟩
  · have hround := trigger_newRound (s := s.chainNotified e before) (r := chainReason before (s.report e)) (by
      rw [hcomp]
      tauto)
    have hrest := trigger_outside (chainReason before (s.report e)) (s.chainNotified e before)
    generalize (s.chainNotified e before).trigger (chainReason before (s.report e)) = t at hround hrest ⊢
    have hbefore : s.chainNotified e before = { t with comp := s.comp, bus := s.bus } := by
      rw [hrest, ← hcomp, ← hbus]
    rw [← hbefore, ← hcomp]
    exact hround
  · rw [trigger_halted (by rw [hcomp]; exact hs)]
    exact ⟨hcomp, hbus⟩

/-- What a chain change leaves of the rest. -/
theorem chainChanged_rest (e : End) (before : Triple) (s : State) :
    (s.chainChanged e before).now = s.now ∧ (s.chainChanged e before).cargo = s.cargo ∧
    (s.chainChanged e before).grade = s.grade ∧ (s.chainChanged e before).pending = s.pending ∧
    (s.chainChanged e before).bus = { s.bus with slot := (s.chainChanged e before).bus.slot } := by
  by_cases h : s.report e = before
  · rw [chainChanged_same h]
    exact ⟨rfl, rfl, rfl, rfl, rfl⟩
  · rw [chainChanged_ne h]
    have hrest := trigger_outside (chainReason before (s.report e)) (s.chainNotified e before)
    have hbus := trigger_bus (chainReason before (s.report e)) (s.chainNotified e before)
    generalize (s.chainNotified e before).trigger (chainReason before (s.report e)) = t at hrest hbus ⊢
    have hnow : t.now = (s.chainNotified e before).now := by rw [hrest]
    have hcargo : t.cargo = (s.chainNotified e before).cargo := by rw [hrest]
    have hgrade : t.grade = (s.chainNotified e before).grade := by rw [hrest]
    have hpending : t.pending = (s.chainNotified e before).pending := by rw [hrest]
    cases e <;> exact ⟨hnow, hcargo, hgrade, hpending, hbus⟩

/-! ## The change of a unit -/

/-- The decoder enters FAULT. -/
def ChainUnit.faults (u v : ChainUnit) : Bool := v.dec.state = .fault && u.dec.state ≠ .fault

/-- The state before the chain change that a changed unit may make. -/
def State.unitChanged (e : End) (v : ChainUnit) (s : State) : State :=
  (s.putUnit e v).notifyIf ((s.chain e).faults v) .fault

theorem changeUnit_eq (e : End) (f : ChainUnit → ChainUnit) (s : State) :
    s.changeUnit e f = (s.unitChanged e (f (s.chain e))).chainChanged e (s.report e) := by
  unfold State.changeUnit
  dsimp only
  rw [syncDrive_setChain]
  rfl

theorem putUnit_port (e : End) (v : ChainUnit) (s : State) : (s.putUnit e v).port = s.port := by cases e <;> rfl

theorem unitChanged_port (e : End) (v : ChainUnit) (s : State) : (s.unitChanged e v).port = { s.port with
    flags := s.port.flags ||| if (s.chain e).faults v then Notice.fault.flag else 0#15 } := by
  unfold State.unitChanged State.notifyIf
  split_ifs
  · rw [State.notify_port, putUnit_port]
  · rw [putUnit_port, BitVec.or_zero]

theorem unitChanged_chain (e : End) (v : ChainUnit) (s : State) : (s.unitChanged e v).chain e = s.unitAfter v := by
  rw [State.unitChanged, State.notifyIf_chain, putUnit_chain]

theorem unitChanged_report (e : End) (v : ChainUnit) (s : State) :
    (s.unitChanged e v).report e = reportOf s.started v := by
  rw [State.report, unitChanged_chain, started_congr (s := s) (by rw [unitChanged_port])]
  exact reportOf_congr rfl rfl

theorem unitChanged_other (e : End) (v : ChainUnit) (s : State) :
    (s.unitChanged e v).chain e.other = s.chain e.other := by
  rw [State.unitChanged, State.notifyIf_chain, putUnit_chain_other]

theorem unitChanged_comp (e : End) (v : ChainUnit) (s : State) : (s.unitChanged e v).comp = s.comp := by
  cases e <;> simp [State.unitChanged, State.putUnit]

theorem unitChanged_bus (e : End) (v : ChainUnit) (s : State) : (s.unitChanged e v).bus = s.bus := by
  cases e <;> simp [State.unitChanged, State.putUnit]

variable (e : End) (f : ChainUnit → ChainUnit)

theorem changeUnit_chain (s : State) : (s.changeUnit e f).chain e = s.unitAfter (f (s.chain e)) := by
  rw [changeUnit_eq, chainChanged_chain, unitChanged_chain]

theorem changeUnit_report (s : State) : (s.changeUnit e f).report e = reportOf s.started (f (s.chain e)) := by
  rw [changeUnit_eq, chainChanged_report, unitChanged_report]

theorem changeUnit_port (s : State) : (s.changeUnit e f).port = { s.port with
    flags := (s.port.flags ||| if (s.chain e).faults (f (s.chain e)) then Notice.fault.flag else 0#15) |||
      chainFlags (s.report e) (reportOf s.started (f (s.chain e))) } := by
  rw [changeUnit_eq, chainChanged_port, unitChanged_port, unitChanged_report]

theorem changeUnit_rest (s : State) : (s.changeUnit e f).now = s.now ∧ (s.changeUnit e f).cargo = s.cargo ∧
    (s.changeUnit e f).grade = s.grade ∧ (s.changeUnit e f).pending = s.pending ∧
    (s.changeUnit e f).bus = { s.bus with slot := (s.changeUnit e f).bus.slot } := by
  rw [changeUnit_eq]
  have hrest := chainChanged_rest e (s.report e) (s.unitChanged e (f (s.chain e)))
  rw [unitChanged_bus] at hrest
  cases e <;> simpa [State.unitChanged, State.putUnit] using hrest

/-- The other end follows the count reported, and where the report stays it followed it before. -/
theorem changeUnit_other (hc : Chains s) : (s.changeUnit e f).chain e.other =
    (s.chain e.other).followed ((s.changeUnit e f).report e).count := by
  rw [changeUnit_report, changeUnit_eq]
  by_cases h : (s.unitChanged e (f (s.chain e))).report e = s.report e
  · rw [chainChanged_same h, unitChanged_other, ← unitChanged_report, h]
    have hfollows := ((chainOk_iff e.other).mp (hc e.other)).2
    rw [End.other_other] at hfollows
    exact (followed_of_follows hfollows (report_count_le (hc e).dec)).symm
  · rw [chainChanged_ne h, trigger_chain, chainNotified_other, unitChanged_other, unitChanged_report]

theorem changeUnit_quietly (h : (s.changeUnit e f).report e = s.report e) :
    (s.changeUnit e f).comp = s.comp ∧ (s.changeUnit e f).bus = s.bus := by
  rw [changeUnit_report, ← unitChanged_report] at h
  rw [changeUnit_eq, chainChanged_same h]
  exact ⟨unitChanged_comp e _ s, unitChanged_bus e _ s⟩

/-- An event of a chain unit acts on its end alone, but for the chain change it makes. -/
theorem changeUnit_endEvent (hc : Chains s) : EndEvent s (s.changeUnit e f) e where
  other := changeUnit_other e f hc
  quietly := changeUnit_quietly e f
  bus := (changeUnit_rest e f s).2.2.2.2
  port := by rw [changeUnit_port]
  cargo := (changeUnit_rest e f s).2.1
  grade := (changeUnit_rest e f s).2.2.1
  pending := (changeUnit_rest e f s).2.2.2.1

/-- The trigger that a change of a unit makes where the report changes. -/
theorem changeUnit_trigger (h : (s.changeUnit e f).report e ≠ s.report e) : ChainTrigger s (s.changeUnit e f) e := by
  have hreport := changeUnit_report e f s
  have hnow := (changeUnit_rest e f s).1
  rw [hreport, ← unitChanged_report e (f (s.chain e))] at h
  obtain ⟨hquiet, hraised, hhalted⟩ := chainChanged_trigger h
  rw [← changeUnit_eq, unitChanged_comp, unitChanged_bus, unitChanged_report, ← hreport] at hquiet hraised
  rw [← changeUnit_eq, unitChanged_comp, unitChanged_bus] at hhalted
  have hunow : (s.unitChanged e (f (s.chain e))).now = s.now := by
    cases e <;> simp [State.unitChanged, State.putUnit]
  rw [hunow, ← hnow] at hquiet
  exact ⟨hquiet, hraised, hhalted⟩

/-- A report is made by the rows of R22. -/
theorem reportRows_of_started (h : s.started = true) : ReportRows s e := by
  constructor
  case valued =>
    rintro (hd | hd) hrelease c hc <;> simp [State.report, reportOf, h, hd, hrelease, hc]
  all_goals intros; simp_all [State.report, reportOf]

end Sys2Proof.Machine
end

section
/-! The events of the chain units: period boundaries, judged periods, steady lines and release inputs (R3 to R6, R8,
R12 to R18, R21, R22). -/

namespace Sys2Proof.Machine

variable {s t : State} {e : End}

/-! ## The drive pin (R3, R5, R6) -/

theorem drivePin_of_hold {level : Bool} (h : s.driveHold e = some level) : s.drivePin e = level := by
  simp only [State.drivePin, h]

theorem drivePin_of_period {w : Ticks} (h : s.driveHold e = none) (hw : (s.chain e).drv.periodFrom = some w) :
    s.drivePin e = decide ((s.now - w) / 160 % periodSteps e < (s.chain e).drv.loaded + 1) := by
  simp only [State.drivePin, h, hw]
  rfl

theorem driveHold_off (h : s.port.part = .unconfigured ∨ (s.chain e).dec.state = .isolated) :
    s.driveHold e = some false := by
  unfold State.driveHold
  obtain h | h := h
  · simp [State.started, h]
  · simp [h]

theorem driveHold_released (hs : s.port.part ≠ .unconfigured) (hi : (s.chain e).dec.state ≠ .isolated)
    (hr : (s.chain e).release = true) : s.driveHold e = some true := by
  simp [State.driveHold, State.started, hs, hi, hr]

theorem driveHold_free (hs : s.port.part ≠ .unconfigured) (hi : (s.chain e).dec.state ≠ .isolated)
    (hr : (s.chain e).release = false) : s.driveHold e = none := by
  simp [State.driveHold, State.started, hs, hi, hr]

theorem steps_lt_iff {elapsed n : Nat} : elapsed / 160 < n ↔ elapsed < 160 * n := by omega

theorem steps_lt_of_lt {now w n : Nat} (hle : w ≤ now) (h : now < w + 160 * n) : (now - w) / 160 < n := by omega

/-- Settles O17: the drive conditions one by one, and the boundary's own two ends. -/
theorem periodBoundaryLoadsPendingCode : Obligations.PeriodBoundaryLoadsPendingCode := by
  refine ⟨fun s e => ⟨fun w hs hi hr hw hle hlt => ?_, fun h => drivePin_of_hold (driveHold_off h),
    fun hs hi hr => drivePin_of_hold (driveHold_released hs hi hr)⟩, fun s w => ⟨fun hw => ?_, fun hw => ?_⟩⟩
  · have hsteps : (s.now - w) / 160 < periodSteps e := by
      cases e
      · exact steps_lt_of_lt hle hlt
      · exact steps_lt_of_lt hle hlt
    rw [drivePin_of_period (driveHold_free hs hi hr) hw, decide_eq_true_eq, Nat.mod_eq_of_lt hsteps]
    exact steps_lt_iff
  · simp only [exec, execPeriodBoundary, State.chain_a, hw]
    rfl
  · simp only [exec, execPeriodBoundary, State.chain_b, hw]
    rfl

/-! ## A decoder event -/

/-- A generator keeps on where the drive condition is the one it agreed with. -/
theorem unitAfter_same {v : ChainUnit} (hc : Chains s) (hdrv : v.drv = (s.chain e).drv)
    (hhold : holdOf s.started v = s.driveHold e) : s.unitAfter v = v := by
  have hperiod := ((chainOk_iff e).mp (hc e)).1.period
  rw [State.unitAfter, hhold, Drive.sync_same s.now (by rw [hdrv]; exact hperiod)]

theorem holdOf_dec {u : ChainUnit} {d : Decoder} {started : Bool} (hi : u.dec.state ≠ .isolated)
    (hd : d.state ≠ .isolated) : holdOf started { u with dec := d } = holdOf started u := by
  simp [holdOf, hi, hd]

/-- What an event of a decoder that is not isolated leaves (R23). -/
structure DecoderTaken (s t : State) (e : End) (d : Decoder) : Prop where
  event  : EndEvent s t e
  chain  : t.chain e = { s.chain e with dec := d }
  report : t.report e = reportOf true { s.chain e with dec := d }
  rows   : ReportRows t e
  port   : t.port = { s.port with
             flags := (s.port.flags ||| if (s.chain e).faults { s.chain e with dec := d } then Notice.fault.flag
               else 0#15) ||| chainFlags (s.report e) (t.report e) }

theorem decoderEvent_taken {f : Decoder → Decoder} (hc : Chains s) (hs : s.started = true)
    (hi : (s.chain e).dec.state ≠ .isolated) (hf : (f (s.chain e).dec).state ≠ .isolated) :
    DecoderTaken s (s.decoderEvent e f) e (f (s.chain e).dec) ∧ (s.decoderEvent e f).now = s.now := by
  have hevent : s.decoderEvent e f = s.changeUnit e fun u => { u with dec := f u.dec } := if_pos hs
  rw [hevent]
  refine ⟨⟨changeUnit_endEvent e _ hc, ?_, ?_, reportRows_of_started e ?_, ?_⟩, (changeUnit_rest e _ s).1⟩
  · rw [changeUnit_chain]
    exact unitAfter_same hc rfl (holdOf_dec hi hf)
  · rw [changeUnit_report, hs]
  · rw [started_congr (s := s) (by rw [changeUnit_port]), hs]
  · rw [changeUnit_port, changeUnit_report]

/-- The same, with the clock moved to the event's instant before. -/
theorem DecoderTaken.of_advanced {w : Ticks} {d : Decoder} (h : DecoderTaken (s.advanceTo w) t e d) :
    DecoderTaken s t e d := by
  obtain ⟨⟨other, quietly, bus, port, cargo, grade, pending⟩, chain, report, rows, hport⟩ := h
  cases e <;> exact ⟨⟨other, quietly, bus, port, cargo, grade, pending⟩, chain, report, rows, hport⟩

theorem Chains.advanceTo (h : Chains s) (w : Ticks) : Chains (s.advanceTo w) :=
  h.congr (fun e => by simp) rfl rfl

/-- An event of a decoder at an instant. -/
theorem sensed_taken {g : Ticks → Decoder → Decoder} {w : Ticks} (hc : Chains s) (hs : s.port.part ≠ .unconfigured)
    (hi : (s.chain e).dec.state ≠ .isolated) (hg : (g (max s.now w) (s.chain e).dec).state ≠ .isolated) :
    DecoderTaken s ((s.advanceTo w).decoderEvent e (g (s.advanceTo w).now)) e (g (max s.now w) (s.chain e).dec) ∧
    ((s.advanceTo w).decoderEvent e (g (s.advanceTo w).now)).now = max s.now w := by
  obtain ⟨htaken, hnow⟩ := decoderEvent_taken (s := s.advanceTo w) (e := e) (f := g (s.advanceTo w).now)
    (hc.advanceTo w) (started_iff.mpr hs) (by rw [State.advanceTo_chain]; exact hi)
    (by rw [State.advanceTo_chain]; exact hg)
  rw [State.advanceTo_chain] at htaken
  exact ⟨htaken.of_advanced, hnow⟩

theorem DecoderTaken.faulted {d : Decoder} (h : DecoderTaken s t e d) (hd : d.state = .fault)
    (hs : (s.chain e).dec.state ≠ .fault) : t.flagSet .fault = true := by
  have hfaults : (s.chain e).faults { s.chain e with dec := d } = true := by simp [ChainUnit.faults, hd, hs]
  simp only [State.flagSet, h.port, hfaults, if_true, BitVec.getLsbD_or]
  simp [Notice.flag, Notice.bit]

/-- A decoder that stays in its state, with its held value, sets no flag. -/
theorem DecoderTaken.unnoticed {d : Decoder} (h : DecoderTaken s t e d) (hs : s.port.part ≠ .unconfigured)
    (hstate : d.state = (s.chain e).dec.state) (hheld : d.held = (s.chain e).dec.held) : t.port = s.port := by
  have hfaults : (s.chain e).faults { s.chain e with dec := d } = false := by
    simp [ChainUnit.faults, hstate]
  have hreport : t.report e = s.report e := by
    rw [h.report]
    simp only [State.report, reportOf, started_iff.mpr hs, hstate, hheld]
  rw [h.port, hfaults, chainFlags, if_pos hreport]
  simp

/-! ## COMPLETED PERIOD (R8, R12 to R14) -/

variable {k : Nat} {c : Candidate} {d : Decoder}

theorem takeValid_acquires (h : d.state = .openLine ∨ d.state = .parting ∨ (d.state = .fault ∧ d.fault = some .stuckHigh)) :
    d.takeValid k c = d.acquire c := by
  unfold Decoder.takeValid
  obtain h | h | ⟨h, hf⟩ := h
  · rw [h]
  · rw [h]
  · rw [h, if_pos hf]

theorem takeValid_compares (h : d.state = .acquiring ∨ d.state = .held ∨ (d.state = .fault ∧ d.fault ≠ some .stuckHigh)) :
    d.takeValid k c = d.compare k c := by
  unfold Decoder.takeValid
  obtain h | h | ⟨h, hf⟩ := h
  · rw [h]
  · rw [h]
  · rw [h, if_neg hf]

/-- The run of equal candidates with another period (R13). -/
def Decoder.runWith (k : Nat) (c : Candidate) (d : Decoder) : Nat :=
  if d.cand = some c then min k (d.run + 1) else 1

theorem compare_confirms (h : k ≤ d.runWith k c) : d.compare k c =
    { d with cand := some c, run := d.runWith k c, unclear := 0, state := .held, held := some c, fault := none } :=
  if_pos h

theorem compare_waits (h : d.runWith k c < k) :
    d.compare k c = { d with cand := some c, run := d.runWith k c, unclear := 0 } := if_neg (not_le.mpr h)

theorem takeUnclear_early (hi : d.state ≠ .isolated) (h : d.unclear < 15) :
    d.takeUnclear = { d with run := 0, cand := none, unclear := min 16 (d.unclear + 1) } := by
  have hno : ¬ min 16 (d.unclear + 1) = 16 := by omega
  unfold Decoder.takeUnclear
  cases hd : d.state with
  | isolated => exact absurd hd hi
  | _ => exact if_neg hno

theorem takeUnclear_late (hd : DecoderOk k d) (hi : d.state ≠ .isolated) (h : 15 ≤ d.unclear) :
    d.takeUnclear = { d with
      run := 0, cand := none, unclear := min 16 (d.unclear + 1), state := .fault, held := none
      fault := some .unclear } := by
  have hsixteen : min 16 (d.unclear + 1) = 16 := by omega
  unfold Decoder.takeUnclear
  cases hstate : d.state with
  | isolated => exact absurd hstate hi
  | fault =>
    refine (if_pos hsixteen).trans ?_
    have hheld := hd.forgotten (.inr (.inl hstate))
    obtain ⟨⟩ := d
    cases hstate
    cases hheld
    rfl
  | _ => exact if_pos hsixteen

theorem judge_of_some {p h : Nat} (hc : candidateOf p h = some c) : d.judge k p h = d.takeValid k c := by
  simp only [Decoder.judge, hc]

theorem judge_of_none {p h : Nat} (hc : candidateOf p h = none) : d.judge k p h = d.takeUnclear := by
  simp only [Decoder.judge, hc]

/-- A decoder that is not isolated acquires or compares a valid period. -/
theorem takeValid_cases (hi : d.state ≠ .isolated) :
    ((d.state = .openLine ∨ d.state = .parting ∨ (d.state = .fault ∧ d.fault = some .stuckHigh)) ∧
      d.takeValid k c = d.acquire c) ∨
    ((d.state = .acquiring ∨ d.state = .held ∨ (d.state = .fault ∧ d.fault ≠ some .stuckHigh)) ∧
      d.takeValid k c = d.compare k c) := by
  by_cases hacq : d.state = .openLine ∨ d.state = .parting ∨ (d.state = .fault ∧ d.fault = some .stuckHigh)
  · exact .inl ⟨hacq, takeValid_acquires hacq⟩
  · have hcmp : d.state = .acquiring ∨ d.state = .held ∨ (d.state = .fault ∧ d.fault ≠ some .stuckHigh) := by
      cases hstate : d.state <;> simp_all
    exact .inr ⟨hcmp, takeValid_compares hcmp⟩

theorem compare_cases (k : Nat) (c : Candidate) (d : Decoder) :
    (k ≤ d.runWith k c ∧ d.compare k c =
      { d with cand := some c, run := d.runWith k c, unclear := 0, state := .held, held := some c, fault := none }) ∨
    (d.runWith k c < k ∧ d.compare k c = { d with cand := some c, run := d.runWith k c, unclear := 0 }) := by
  by_cases h : k ≤ d.runWith k c
  · exact .inl ⟨h, compare_confirms h⟩
  · exact .inr ⟨not_le.mp h, compare_waits (not_le.mp h)⟩

theorem judge_ne_isolated {p h : Nat} (hi : d.state ≠ .isolated) (hd : DecoderOk k d) :
    (d.judge k p h).state ≠ .isolated := by
  cases hc : candidateOf p h with
  | some c =>
    rw [judge_of_some hc]
    obtain ⟨-, h⟩ | ⟨-, h⟩ := takeValid_cases (k := k) (c := c) hi
    · rw [h]
      nofun
    · rw [h]
      obtain ⟨-, h⟩ | ⟨-, h⟩ := compare_cases k c d
      · rw [h]
        nofun
      · rw [h]
        exact hi
  | none =>
    rw [judge_of_none hc]
    by_cases h : d.unclear < 15
    · rw [takeUnclear_early hi h]
      exact hi
    · rw [takeUnclear_late hd hi (by omega)]
      nofun

/-- A period that completes, as an event of the decoder. -/
theorem execCompletedPeriod_taken {p h : Nat} (hc : Chains s) (hs : s.port.part ≠ .unconfigured)
    (hi : (s.chain e).dec.state ≠ .isolated) (hcompletes : periodCompletes p h = true) :
    ∃ t, exec (.completedPeriod e p h) s = .next t ∧ t.now = max s.now ((s.chain e).dec.levelFrom + p) ∧
      DecoderTaken s t e (((s.chain e).dec.judge s.k p h).rise t.now) := by
  have hexec : exec (.completedPeriod e p h) s = .next ((s.advanceTo ((s.chain e).dec.levelFrom + p)).decoderEvent e
      ((fun w d => Decoder.takePeriod s.k p h w d) (s.advanceTo ((s.chain e).dec.levelFrom + p)).now)) :=
    if_pos ⟨senses_iff.mpr ⟨started_iff.mpr hs, hi⟩, hcompletes⟩
  have htake : Decoder.takePeriod s.k p h (max s.now ((s.chain e).dec.levelFrom + p)) (s.chain e).dec =
      ((s.chain e).dec.judge s.k p h).rise (max s.now ((s.chain e).dec.levelFrom + p)) :=
    Decoder.takePeriod_eq _ _ _ _ _ hi (by omega)
  obtain ⟨htaken, hnow⟩ := sensed_taken (g := fun w d => Decoder.takePeriod s.k p h w d) (w := (s.chain e).dec.levelFrom + p)
    hc hs hi (by rw [htake]; exact judge_ne_isolated hi (hc e).dec)
  refine ⟨_, hexec, hnow, ?_⟩
  rw [hnow]
  rwa [htake] at htaken

/-- Settles O18: the judgement of the period by its candidate, and what discards one. -/
theorem completedPeriodTaken : Obligations.CompletedPeriodTaken := by
  refine ⟨fun s e p h hc hs hi hpos hlt hhigh hlow => ?_, fun s e p h hout => ?_⟩
  · have hdec := (hc e).dec
    obtain ⟨t, hexec, hnow, htaken⟩ := execCompletedPeriod_taken hc hs hi
      ((periodCompletes_iff p h).mpr ⟨hpos, hlt, hhigh, hlow⟩)
    have hchain := htaken.chain
    refine ⟨t, hexec, htaken.event, hnow, htaken.rows, by rw [hchain], by rw [hchain]; rfl, by rw [hchain]; rfl,
      by rw [hchain]; rfl, fun c hcand => ?_, fun hcand => ?_⟩
    · rw [judge_of_some hcand] at hchain
      rw [hchain]
      obtain ⟨hstate, htook⟩ | ⟨hstate, htook⟩ := takeValid_cases (k := s.k) (c := c) hi
      · rw [htook]
        exact ⟨rfl, rfl, fun _ => ⟨rfl, rfl, rfl, rfl⟩, fun hother => by
          obtain h1 | h1 | ⟨h1, hf1⟩ := hstate <;> obtain h2 | h2 | ⟨h2, hf2⟩ := hother <;> simp_all⟩
      · rw [htook]
        have hno (hother : (s.chain e).dec.state = .openLine ∨ (s.chain e).dec.state = .parting ∨
            ((s.chain e).dec.state = .fault ∧ (s.chain e).dec.fault = some .stuckHigh)) : False := by
          obtain h1 | h1 | ⟨h1, hf1⟩ := hstate <;> obtain h2 | h2 | ⟨h2, hf2⟩ := hother <;> simp_all
        obtain ⟨hrun, hcompare⟩ | ⟨hrun, hcompare⟩ := compare_cases s.k c (s.chain e).dec
        · rw [hcompare]
          exact ⟨rfl, rfl, fun hother => (hno hother).elim,
            fun _ => ⟨rfl, fun _ => ⟨rfl, rfl, rfl⟩, fun hless => absurd hrun (not_le.mpr hless)⟩⟩
        · rw [hcompare]
          exact ⟨rfl, rfl, fun hother => (hno hother).elim,
            fun _ => ⟨rfl, fun hmore => absurd hmore (not_le.mpr hrun), fun _ => ⟨rfl, rfl, rfl⟩⟩⟩
    · rw [judge_of_none hcand] at hchain htaken
      by_cases hunclear : (s.chain e).dec.unclear < 15
      · rw [takeUnclear_early hi hunclear] at hchain htaken
        rw [hchain]
        exact ⟨rfl, rfl, rfl, fun _ => ⟨rfl, rfl, rfl, htaken.unnoticed hs rfl rfl⟩, fun hlate => by omega⟩
      · rw [takeUnclear_late hdec hi (by omega)] at hchain htaken
        rw [hchain]
        exact ⟨rfl, rfl, rfl, fun hearly => absurd hearly hunclear, fun _ => ⟨rfl, rfl, rfl,
          fun hfault => htaken.faulted rfl hfault,
          fun hfault => htaken.unnoticed hs hfault.symm (hdec.forgotten (.inr (.inl hfault))).symm⟩⟩
  · refine if_neg fun hcond => ?_
    obtain ⟨hsenses, hcompletes⟩ := hcond
    obtain ⟨hstarted, hi⟩ := senses_iff.mp hsenses
    obtain ⟨h1, h2, h3, h4⟩ := (periodCompletes_iff p h).mp hcompletes
    obtain hp | hp | hp | hp | hp | hp := hout
    · exact started_iff.mp hstarted hp
    · exact hi hp
    all_goals omega

/-! ## LOSS, PARTING SENSED and STUCK HIGH (R15 to R18) -/

theorem execLoss_eq (hs : s.port.part ≠ .unconfigured) (hi : (s.chain e).dec.state ≠ .isolated) :
    exec (.loss e) s = .next ((s.advanceTo ((s.chain e).dec.levelFrom + 12000)).decoderEvent e
      (Decoder.lose (s.advanceTo ((s.chain e).dec.levelFrom + 12000)).now)) :=
  if_pos (senses_iff.mpr ⟨started_iff.mpr hs, hi⟩)

theorem execPartingSensed_eq (hs : s.port.part ≠ .unconfigured) (hi : (s.chain e).dec.state ≠ .isolated) :
    exec (.partingSensed e) s = .next ((s.advanceTo ((s.chain e).dec.levelFrom + 8000)).decoderEvent e
      (Decoder.part (s.advanceTo ((s.chain e).dec.levelFrom + 8000)).now)) :=
  if_pos (senses_iff.mpr ⟨started_iff.mpr hs, hi⟩)

theorem execStuckHigh_eq {r : Ticks} (hs : s.port.part ≠ .unconfigured) (hp : (s.chain e).dec.state = .parting)
    (hr : (s.chain e).dec.highFrom = some r) : exec (.stuckHigh e) s =
      .next ((s.advanceTo (r + 12000000)).decoderEvent e (Decoder.stick (s.advanceTo (r + 12000000)).now)) := by
  simp only [exec, execStuckHigh, hr, started_iff.mpr hs, hp, and_self, if_true]
  rfl

theorem execStuckHigh_none (h : ∀ r, (s.chain e).dec.highFrom = some r → s.port.part ≠ .unconfigured →
    (s.chain e).dec.state ≠ .parting) : exec (.stuckHigh e) s = .next s := by
  simp only [exec, execStuckHigh]
  split
  · rfl
  · rename_i r hr
    exact if_neg fun hcond => h r hr (started_iff.mp hcond.1) hcond.2

/-- Settles O19: each steady line as an event of the decoder. -/
theorem steadyLineEvents : Obligations.SteadyLineEvents := by
  refine ⟨fun s e hc hs hi => ⟨?_, ?_, fun r hp hr => ?_, fun h => ?_⟩, fun s e h => ⟨?_, ?_, ?_⟩⟩
  · have hlose (w : Ticks) : (s.chain e).dec.lose w = .fresh w := if_neg hi
    obtain ⟨htaken, hnow⟩ := sensed_taken (g := Decoder.lose) (w := (s.chain e).dec.levelFrom + 12000) hc hs hi
      (by rw [hlose]; nofun)
    rw [hlose, ← hnow] at htaken
    refine ⟨_, execLoss_eq hs hi, htaken.event, hnow, htaken.chain, htaken.report.trans ?_⟩
    cases hr : (s.chain e).release <;> simp [reportOf, Decoder.fresh, hr]
  · have hpart (w : Ticks) : (s.chain e).dec.part w = { (s.chain e).dec with
        state := .parting, cand := none, run := 0, unclear := 0, fault := none, measure := none, levelFrom := w
        highFrom := some (w - 8000) } := if_neg hi
    obtain ⟨htaken, hnow⟩ := sensed_taken (g := Decoder.part) (w := (s.chain e).dec.levelFrom + 8000) hc hs hi
      (by rw [hpart]; nofun)
    rw [hpart, ← hnow] at htaken
    refine ⟨_, execPartingSensed_eq hs hi, htaken.event, hnow, htaken.chain, htaken.report.trans ?_⟩
    cases hr : (s.chain e).release <;> simp [reportOf, hr]
  · have hstick (w : Ticks) : (s.chain e).dec.stick w = { (s.chain e).dec with
        state := .fault, held := none, cand := none, run := 0, unclear := 0, fault := some .stuckHigh
        measure := none, levelFrom := w, highFrom := none } := if_pos hp
    obtain ⟨htaken, hnow⟩ := sensed_taken (g := Decoder.stick) (w := r + 12000000) hc hs hi
      (by rw [hstick]; nofun)
    rw [hstick, ← hnow] at htaken
    refine ⟨_, execStuckHigh_eq hs hp hr, htaken.event, hnow, htaken.chain, htaken.report.trans ?_,
      htaken.faulted rfl (by rw [hp]; nofun)⟩
    cases hrel : (s.chain e).release <;> simp [reportOf, hrel]
  · refine execStuckHigh_none fun r hr _ => ?_
    obtain h | h := h
    · exact h
    · rw [h] at hr
      cases hr
  all_goals
    have hno : s.port.part ≠ .unconfigured → (s.chain e).dec.state = .isolated := fun hs => h.resolve_left hs
  · exact if_neg fun hsenses => (senses_iff.mp hsenses).2 (hno (started_iff.mp (senses_iff.mp hsenses).1))
  · exact if_neg fun hsenses => (senses_iff.mp hsenses).2 (hno (started_iff.mp (senses_iff.mp hsenses).1))
  · exact execStuckHigh_none fun r _ hs => by rw [hno hs]; nofun

/-! ## The release inputs (R21) -/

/-- Settles O20: the drive condition and the report with the input, and without it. -/
theorem releaseInputActsOnItsEnd : Obligations.ReleaseInputActsOnItsEnd := by
  refine fun s e hc => ⟨?_, ?_⟩
  · have hevent := changeUnit_endEvent e (fun u => { u with release := true }) hc
    have hnow := (changeUnit_rest e (fun u => { u with release := true }) s).1
    have hport := changeUnit_port e (fun u => { u with release := true }) s
    have hreport := changeUnit_report e (fun u => { u with release := true }) s
    have hchain : (s.changeUnit e fun u => { u with release := true }).chain e =
        { dec := (s.chain e).dec, drv := { (s.chain e).drv with periodFrom := none }, release := true } := by
      rw [changeUnit_chain]
      obtain ⟨level, hhold⟩ : ∃ level, holdOf s.started { s.chain e with release := true } = some level := by
        unfold holdOf
        split
        · exact ⟨_, rfl⟩
        · split
          · exact ⟨_, rfl⟩
          · exact ⟨true, rfl⟩
      rw [State.unitAfter, hhold]
      rfl
    have hpart : (s.changeUnit e fun u => { u with release := true }).port.part = s.port.part := by rw [hport]
    have hexec : exec (.releaseAsserted e) s = .next (s.changeUnit e fun u => { u with release := true }) := rfl
    generalize s.changeUnit e (fun u => { u with release := true }) = t at *
    refine ⟨t, hexec, hevent, hnow, hchain, fun hs hi => ⟨drivePin_of_hold (driveHold_released ?_ ?_ ?_), ?_⟩,
      fun h => ⟨?_, drivePin_of_hold (driveHold_off ?_)⟩⟩
    · rw [hpart]; exact hs
    · rw [hchain]; exact hi
    · rw [hchain]
    · rw [hreport]
      simp [reportOf, started_iff.mpr hs, hi]
    · rw [hreport]
      obtain h | h := h
      · simp [State.report, reportOf, not_started h]
      · simp [State.report, reportOf, h]
    · rw [hpart, hchain]; exact h
  · have hevent := changeUnit_endEvent e (fun u => { u with release := false }) hc
    have hnow := (changeUnit_rest e (fun u => { u with release := false }) s).1
    have hport := changeUnit_port e (fun u => { u with release := false }) s
    have hreport := changeUnit_report e (fun u => { u with release := false }) s
    have hchain := changeUnit_chain e (fun u => { u with release := false }) s
    have hpart : (s.changeUnit e fun u => { u with release := false }).port.part = s.port.part := by rw [hport]
    have hexec : exec (.releaseDeasserted e) s = .next (s.changeUnit e fun u => { u with release := false }) := rfl
    have hperiod := ((chainOk_iff e).mp (hc e)).1.period
    generalize s.changeUnit e (fun u => { u with release := false }) = t at *
    refine ⟨t, hexec, hevent, hnow, by rw [hchain]; rfl, by rw [hchain]; rfl,
      fun hs => reportRows_of_started e (started_iff.mpr (by rw [hpart]; exact hs)), fun hs hi hr => ?_, fun h => ?_⟩
    · have hnone : (s.chain e).drv.periodFrom = none := by
        rw [driveHold_released hs hi hr] at hperiod
        simpa using hperiod
      have hfree : holdOf s.started { s.chain e with release := false } = none := by
        simp [holdOf, started_iff.mpr hs, hi]
      have hdrv : (t.chain e).drv = { (s.chain e).drv with
          loaded := (s.chain e).drv.pending, periodFrom := some s.now } := by
        rw [hchain, State.unitAfter, hfree]
        exact Drive.sync_begins s.now hnone
      refine ⟨hdrv, ?_⟩
      rw [drivePin_of_period (w := s.now) (driveHold_free (by rw [hpart]; exact hs) (by rw [hchain]; exact hi)
        (by rw [hchain]; rfl)) (by rw [hdrv]), hnow]
      simp
    · have hsame : holdOf s.started { s.chain e with release := false } = s.driveHold e := by
        obtain h | h | h := h
        · simp [holdOf, State.driveHold, not_started h]
        · simp [holdOf, State.driveHold, h]
        · rw [driveHold_eq, holdOf, holdOf, h]
      have hrep : reportOf s.started { s.chain e with release := false } = s.report e := by
        obtain h | h | h := h
        · simp [State.report, reportOf, not_started h]
        · simp [State.report, reportOf, h]
        · exact reportOf_congr rfl h.symm
      rw [hchain, unitAfter_same (e := e) hc (by rfl) hsame, hreport]
      exact ⟨rfl, hrep⟩

end Sys2Proof.Machine
end

section
/-! START, RESTART and ISOLATE (R20, R24, R157, R158, R160), and the notice of every chain change (R23). -/

namespace Sys2Proof.Machine

variable {s t : State} {e : End} {mosi : List Bool}

/-! ## RESTART -/

theorem restart_eq (s : State) : s.restart = { s with
    comp := s.restart.comp
    bus := { Bus.reset with
      ctrl := .listening, idle := false, idleDue := some (s.now + 352), counters := s.bus.counters }
    grade := { s.grade with ceiling := s.grade.limit, errors := 0, upRun := 0, windowDue := some (s.now + 4000000) }
    cargo := { s.cargo with queue := [], received := [], outcomes := [] }
    port := { s.port with part := .running, flags := 0x2000#15 } } := by
  simp only [State.restart, State.raiseEpoch]
  rw [changeEpoch_rest]
  rfl

/-- The engine after RESTART: a foreground round with nothing left of before but the epoch. -/
theorem restart_comp (s : State) : ∃ o, s.restart.comp = { Comp.reset with
    state := .quiet, epoch := s.comp.epoch + 1, reason := .start, lastEntry := some s.now
    holdDue := some (s.now + 320000), deadlineDue := some (s.now + 8000000)
    table := [⟨s.identity, o, none⟩] } := by
  simp only [State.restart, State.raiseEpoch, State.setPort_comp, changeEpoch_comp]
  exact ⟨_, rfl⟩

/-- Settles O4, by the state that RESTART leaves. -/
theorem restartResetsTheBusSide : Obligations.RestartResetsTheBusSide := by
  refine fun s mosi hready hpart => ⟨_, rfl, ?_⟩
  rw [takeCommand_done hready (t := (s.clockOut (8 + mosi.length) []).restart) (answer := [0x00])
    (if_pos (started_iff.mpr hpart)), clockOut_zeros]
  obtain ⟨o, hcomp⟩ := restart_comp { s with port := { s.port with csn := none, miso := s.zerosOut mosi.length } }
  rw [restart_eq, hcomp]
  exact ⟨rfl, rfl, rfl, rfl, rfl, rfl, rfl, rfl, rfl, rfl, rfl, rfl, rfl, rfl, rfl, rfl, rfl, rfl, rfl, rfl, rfl⟩

/-! ## START -/

/-- A chain unit at START, with its first period unless its release input is asserted (R24). -/
def ChainUnit.begun (w : Ticks) (u : ChainUnit) : ChainUnit :=
  { dec := .fresh w
    drv := { pending := 1, loaded := 1, saturated := false, periodFrom := if u.release then none else some w }
    release := u.release }

theorem begin_sync (w : Ticks) (u : ChainUnit) :
    { u.begin w with drv := (u.begin w).drv.sync (holdOf true (u.begin w)) w } = u.begun w := by
  obtain ⟨dec, drv, release⟩ := u
  cases release <;> rfl

theorem unitsBegun_chain_eq (e : End) (s : State) : s.unitsBegun.chain e = (s.chain e).begun s.now := by
  obtain ⟨u, hu⟩ : ∃ u, u = ((s.setPort { s.port with part := .running, cab := .inactive }).setChain .a
    (s.chainA.begin s.now)).setChain .b (s.chainB.begin s.now) := ⟨_, rfl⟩
  have hdef : s.unitsBegun = (u.syncDrive .a).syncDrive .b := by rw [hu]; rfl
  have hstarted : u.started = true := by rw [hu]; rfl
  have hnow : u.now = s.now := by rw [hu]; rfl
  have hunit (x : End) : u.chain x = (s.chain x).begin s.now := by rw [hu]; cases x <;> rfl
  have hb : (u.syncDrive .a).chain .b = u.chain .b := syncDrive_chain_ne (by decide) u
  have ha : ((u.syncDrive .a).syncDrive .b).chain .a = (u.syncDrive .a).chain .a := syncDrive_chain_ne (by decide) _
  rw [hdef]
  cases e
  · rw [ha, syncDrive_eq, State.chain_setChain_same, driveHold_eq, hstarted, hunit, hnow]
    exact begin_sync _ _
  · rw [syncDrive_eq, State.chain_setChain_same, driveHold_eq, hb, syncDrive_started, hstarted, hunit, syncDrive_now,
      hnow]
    exact begin_sync _ _

/-- The state of START before the chain changes of asserted release inputs. -/
def State.begunQuiet (s : State) : State :=
  ((s.unitsBegun.setBus (s.unitsBegun.bus.listen s.unitsBegun.now)).setGrade (s.grade.begin s.now)).trigger .start

theorem begunQuiet_eq (h : s.comp.state = .idle) : s.begunQuiet = { s with
    chainA := s.chainA.begun s.now
    chainB := s.chainB.begun s.now
    comp := s.begunQuiet.comp
    bus := { s.bus with ctrl := .listening, idle := false, idleDue := some (s.now + 352), slot := none }
    grade := { s.grade with ceiling := s.grade.limit, errors := 0, upRun := 0, windowDue := some (s.now + 4000000) }
    port := { s.port with part := .running, cab := .inactive } } := by
  have ha := unitsBegun_chain_eq .a s
  have hb := unitsBegun_chain_eq .b s
  have hport := unitsBegun_port s
  have hcomp : s.unitsBegun.comp = s.comp := by simp [State.unitsBegun]
  have hbus : s.unitsBegun.bus = s.bus := by simp [State.unitsBegun]
  have hnow : s.unitsBegun.now = s.now := by simp [State.unitsBegun]
  have hcargo : s.unitsBegun.cargo = s.cargo := by simp [State.unitsBegun]
  have hpending : s.unitsBegun.pending = s.pending := by simp [State.unitsBegun]
  have htrigger : s.begunQuiet = (((s.unitsBegun.setBus (s.unitsBegun.bus.listen s.unitsBegun.now)).setGrade
      (s.grade.begin s.now)).recordReason .start).raiseEpoch := by
    unfold State.begunQuiet
    generalize hu : (s.unitsBegun.setBus (s.unitsBegun.bus.listen s.unitsBegun.now)).setGrade (s.grade.begin s.now) = u
    have hidle : u.comp.state = .idle := by rw [← hu]; exact (congrArg Comp.state hcomp).trans h
    simp [State.trigger, hidle]
  rw [htrigger, State.raiseEpoch, changeEpoch_rest]
  generalize s.unitsBegun = u at *
  obtain ⟨now, chainA, chainB, bus, comp, cargo, grade, port, pending⟩ := u
  cases ha
  cases hb
  cases hport
  cases hcomp
  cases hbus
  cases hnow
  cases hcargo
  cases hpending
  rfl

theorem begunQuiet_comp (h : s.comp.state = .idle) : ∃ o, s.begunQuiet.comp = { s.comp with
    state := .quiet, epoch := s.comp.epoch + 1, reason := .start, pendingRoster := none, disagreements := 0
    ownSent := 0, offerDone := false, overflow := false, lastEntry := some s.now
    holdDue := some (s.now + 320000), cadenceDue := none, retryDue := none
    retryFell := s.comp.retryLeft s.now, deadlineDue := some (s.now + 8000000)
    table := [⟨s.identity, o, none⟩]
    presenceDue := if s.currentIsLimp then s.comp.presenceDue else none
    watch := if s.currentIsLimp then s.comp.watch else [] } := by
  have hcomp : s.unitsBegun.comp = s.comp := by simp [State.unitsBegun]
  have hnow : s.unitsBegun.now = s.now := by simp [State.unitsBegun]
  have hport := unitsBegun_port s
  unfold State.begunQuiet
  generalize s.unitsBegun = u at *
  obtain ⟨now, chainA, chainB, bus, comp, cargo, grade, port, pending⟩ := u
  cases hcomp
  cases hnow
  cases hport
  unfold State.trigger
  split
  case h_1 =>
    rw [if_pos rfl, State.raiseEpoch, changeEpoch_comp]
    exact ⟨_, rfl⟩
  all_goals simp_all

theorem begunUnit_report {u : ChainUnit} {w : Ticks} (hu : s.chain e = u.begun w) (hs : s.started = true) :
    s.report e = if u.release then ⟨.parting, 0, none⟩ else ⟨.openEnd, 0, none⟩ := by
  rw [State.report, hu, hs]
  obtain ⟨dec, drv, release⟩ := u
  cases release <;> rfl

theorem followed_begun (u : ChainUnit) (w : Ticks) : (u.begun w).followed 0 = u.begun w := rfl

/-- The chain change into PARTING of an end whose release input is asserted at START (R24). -/
theorem releasedAtStart_eq {u v : ChainUnit} {w : Ticks} (hq : s.comp.state = .quiet) (hs : s.started = true)
    (hu : s.chain e = u.begun w) (hv : s.chain e.other = v.begun w) : s.releasedAtStart e =
      if u.release then { s with
        comp := { s.comp with reason := .parting, holdDue := some (s.now + 320000) }
        port := { s.port with flags := s.port.flags ||| 0x000C#15 } }
      else s := by
  have hreport := begunUnit_report hu hs
  have hrelease : (s.chain e).release = u.release := by rw [hu]; rfl
  unfold State.releasedAtStart
  rw [hrelease]
  cases hr : u.release with
  | false => rfl
  | true =>
    rw [hr, if_pos rfl] at hreport
    rw [if_pos rfl, if_pos rfl, chainChanged_ne (by rw [hreport]; decide), hreport]
    have hnotified : s.chainNotified e ⟨.openEnd, 0, none⟩ =
        { s with port := { s.port with flags := s.port.flags ||| 0x000C#15 } } := by
      rw [State.chainNotified, hreport, hv, followed_begun, ← hv, State.setChain_self]
      rfl
    rw [hnotified]
    exact trigger_quiet (by exact hq) (.inr rfl)

/-- START from IDLE: every block begins, and the release inputs make their chain changes. -/
theorem begin_of_idle (h : s.comp.state = .idle) : s.begin = { s.begunQuiet with
    comp := { s.begunQuiet.comp with
      reason := if s.chainA.release || s.chainB.release then .parting else .start }
    port := { s.begunQuiet.port with
      flags := if s.chainA.release || s.chainB.release then s.port.flags ||| 0x000C#15 else s.port.flags } } := by
  have heq := begunQuiet_eq h
  obtain ⟨o, hcomp⟩ := begunQuiet_comp h
  rw [hcomp] at heq
  have hbegin : s.begin = (s.begunQuiet.releasedAtStart .a).releasedAtStart .b := begin_eq s
  rw [hbegin, heq]
  rw [releasedAtStart_eq (e := .a) (w := s.now) (u := s.chainA) (v := s.chainB) rfl rfl rfl rfl]
  cases ha : s.chainA.release with
  | false =>
    rw [if_neg Bool.false_ne_true,
      releasedAtStart_eq (e := .b) (w := s.now) (u := s.chainB) (v := s.chainA) rfl rfl rfl rfl]
    cases hb : s.chainB.release <;> rfl
  | true =>
    rw [if_pos rfl, releasedAtStart_eq (e := .b) (w := s.now) (u := s.chainB) (v := s.chainA) rfl rfl rfl rfl]
    cases hb : s.chainB.release with
    | false => rfl
    | true =>
      rw [if_pos rfl]
      simp only [BitVec.or_assoc, BitVec.or_self, Bool.or_self, if_true]

/-- Settles O3, by the state that START leaves from IDLE. -/
theorem startBeginsEveryBlock : Obligations.StartBeginsEveryBlock := by
  refine fun s i mosi hready hpart himage hidle => ⟨_, rfl, ?_⟩
  have hrun : State.startCommand ((wholeBytes mosi).take 160) (s.clockOut (8 + mosi.length) []) =
      ((s.clockOut (8 + mosi.length) []).begin, [0x00]) := by
    rw [State.startCommand, clockOut_started, not_started hpart, clockOut_image, himage]
    rfl
  rw [takeCommand_done hready hrun, clockOut_zeros]
  obtain ⟨o, hcomp⟩ := begunQuiet_comp (s := { s with port := { s.port with
    csn := none, miso := s.zerosOut mosi.length } }) hidle
  have hid : State.identity { s with port := { s.port with csn := none, miso := s.zerosOut mosi.length } } =
      i.identity := by simp only [State.identity, himage]
  rw [hid] at hcomp
  rw [begin_of_idle (by exact hidle), begunQuiet_eq (by exact hidle), hcomp]
  refine ⟨rfl, fun e => ?_, rfl, rfl, rfl, rfl, rfl, rfl, rfl, rfl, rfl, rfl, rfl, rfl, rfl, rfl, rfl⟩
  cases e <;> rfl

end Sys2Proof.Machine
end

section
/-! ISOLATE (R20, R160), and the notice of every chain change (R4, R23). -/

namespace Sys2Proof.Machine

variable {s t : State} {e : End} {mosi : List Bool}

/-! ## ISOLATE -/

/-- A unit put back as it was changes nothing. -/
theorem changeUnit_same {f : ChainUnit → ChainUnit} (hc : Chains s) (hf : f (s.chain e) = s.chain e) :
    s.changeUnit e f = s := by
  have hput : s.unitChanged e (s.chain e) = s := by
    have hfaults : (s.chain e).faults (s.chain e) = false := by simp [ChainUnit.faults]
    rw [State.unitChanged, hfaults, State.putUnit, unitAfter_same hc rfl rfl, State.setChain_self]
    rfl
  rw [changeUnit_eq, hf, hput, chainChanged_same rfl]

theorem isolate_same {on : Bool} (hc : Chains s)
    (h : (on = true ∧ (s.chain e).dec.state = .isolated) ∨ (on = false ∧ (s.chain e).dec.state ≠ .isolated)) :
    s.isolate e on = s := by
  refine changeUnit_same hc ?_
  obtain ⟨rfl, h⟩ | ⟨rfl, h⟩ := h
  · simp [Decoder.isolate, h]
  · simp [Decoder.unisolate, h]

/-- What setting or lifting isolation leaves of the rest (R4, R23). -/
theorem isolate_event (on : Bool) (hc : Chains s) :
    EndEvent s (s.isolate e on) e ∧ (s.isolate e on).now = s.now :=
  ⟨changeUnit_endEvent e _ hc, (changeUnit_rest e _ s).1⟩

/-- What setting isolation leaves of its end (R20). -/
theorem isolate_sets (hs : s.port.part ≠ .unconfigured) (hi : (s.chain e).dec.state ≠ .isolated) :
    (s.isolate e true).chain e =
      { dec := { Decoder.fresh s.now with state := .isolated }
        drv := { (s.chain e).drv with periodFrom := none }, release := (s.chain e).release } ∧
    (s.isolate e true).report e = ⟨.isolated, 0, none⟩ ∧
    (s.isolate e true).port = { s.port with flags := s.port.flags ||| 0x0004#15 } := by
  have hdec : (s.chain e).dec.isolate s.now = { Decoder.fresh s.now with state := .isolated } := if_neg hi
  have hstarted := started_iff.mpr hs
  have hreport : reportOf s.started { s.chain e with dec := (s.chain e).dec.isolate s.now } = ⟨.isolated, 0, none⟩ := by
    rw [hdec]
    simp [reportOf, hstarted]
  have hbefore : (s.report e).state ≠ .isolated := by
    simp only [State.report, reportOf, hstarted, hi, Bool.not_true, Bool.false_eq_true, if_false]
    split
    · nofun
    · split <;> nofun
  have hflags : chainFlags (s.report e) ⟨.isolated, 0, none⟩ = 0x0004#15 := by
    have hreason : chainReason (s.report e) ⟨.isolated, 0, none⟩ = .chain := if_neg fun h => nomatch h.1
    rw [chainFlags, if_neg fun h => hbefore (by rw [← h]), hreason]
    rfl
  have hfaults : (s.chain e).faults { s.chain e with dec := (s.chain e).dec.isolate s.now } = false := by
    rw [hdec]
    rfl
  refine ⟨?_, (changeUnit_report e _ s).trans hreport, ?_⟩
  · refine (changeUnit_chain e _ s).trans ?_
    rw [if_pos rfl, hdec, State.unitAfter, hstarted]
    rfl
  · refine (changeUnit_port e _ s).trans ?_
    simp only [if_true]
    rw [hfaults, hreport, hflags, if_neg Bool.false_ne_true, BitVec.or_zero]

/-- What lifting isolation leaves of its end (R20). -/
theorem isolate_lifts (hc : Chains s) (hs : s.port.part ≠ .unconfigured) (hi : (s.chain e).dec.state = .isolated) :
    (s.isolate e false).chain e =
      { dec := .fresh s.now
        drv := if (s.chain e).release then (s.chain e).drv
          else { (s.chain e).drv with loaded := (s.chain e).drv.pending, periodFrom := some s.now }
        release := (s.chain e).release } ∧
    (s.isolate e false).report e =
      (if (s.chain e).release then ⟨.parting, 0, none⟩ else ⟨.openEnd, 0, none⟩) ∧
    (s.isolate e false).port = { s.port with
      flags := s.port.flags ||| (if (s.chain e).release then 0x000C#15 else 0x0004#15) } := by
  have hdec : (s.chain e).dec.unisolate s.now = .fresh s.now := if_pos hi
  have hstarted := started_iff.mpr hs
  have hbefore : s.report e = ⟨.isolated, 0, none⟩ := by simp [State.report, reportOf, hstarted, hi]
  have hperiod : (s.chain e).drv.periodFrom = none := by
    have hp := ((chainOk_iff e).mp (hc e)).1.period
    rw [driveHold_off (.inr hi)] at hp
    simpa using hp
  have hchain := changeUnit_chain e (fun u => { u with dec := u.dec.unisolate s.now }) s
  have hreport := changeUnit_report e (fun u => { u with dec := u.dec.unisolate s.now }) s
  have hport := changeUnit_port e (fun u => { u with dec := u.dec.unisolate s.now }) s
  simp only [hdec, hstarted, hbefore, State.unitAfter] at hchain hreport hport
  have hisolate : s.isolate e false = s.changeUnit e fun u => { u with dec := u.dec.unisolate s.now } := rfl
  rw [hisolate, hchain, hreport, hport]
  generalize s.chain e = u at hperiod ⊢
  obtain ⟨dec, ⟨pending, loaded, saturated, periodFrom⟩, release⟩ := u
  cases hperiod
  cases release
  · exact ⟨rfl, rfl, by rw [ChainUnit.faults]; simp [Decoder.fresh, chainFlags, reportOf, chainReason]⟩
  · exact ⟨rfl, rfl, by rw [ChainUnit.faults]; simp [Decoder.fresh, chainFlags, reportOf, chainReason]⟩

/-- With isolation lifted the pin is high: a period begins, or local release holds it. -/
theorem isolate_lifts_pin (hc : Chains s) (hs : s.port.part ≠ .unconfigured) (hi : (s.chain e).dec.state = .isolated) :
    (s.isolate e false).drivePin e = true := by
  obtain ⟨hchain, -, hport⟩ := isolate_lifts hc hs hi
  have hpart : (s.isolate e false).port.part ≠ .unconfigured := by rw [hport]; exact hs
  have hopen : ((s.isolate e false).chain e).dec.state ≠ .isolated := by rw [hchain]; nofun
  cases hr : (s.chain e).release with
  | true => exact drivePin_of_hold (driveHold_released hpart hopen (by rw [hchain]; exact hr))
  | false =>
    rw [hr, if_neg Bool.false_ne_true] at hchain
    rw [drivePin_of_period (w := s.now) (driveHold_free hpart hopen (by rw [hchain])) (by rw [hchain]),
      (isolate_event false hc).2]
    simp

theorem endOfCode?_eq {b : Byte} (hb : b.toNat = if e = .a then 0 else 1) : endOfCode? b.toNat = some e := by
  rw [hb]
  cases e <;> rfl

theorem isolateCommand_eq {b c : Byte} {more : List Byte} (hs : s.port.part ≠ .unconfigured)
    (hb : b.toNat = if e = .a then 0 else 1) : s.isolateCommand (b :: c :: more) =
      if c.toNat = 0 then (s.isolate e false).done []
      else if c.toNat = 1 then (s.isolate e true).done []
      else s.refuse .badParameter := by
  simp only [State.isolateCommand, started_iff.mpr hs, if_true, endOfCode?_eq hb]

theorem isolateCommand_bad {p : List Byte} (hs : s.port.part ≠ .unconfigured)
    (h : p.length < 2 ∨ ∃ b more, p = b :: more ∧ 1 < b.toNat) : s.isolateCommand p = s.refuse .badParameter := by
  unfold State.isolateCommand
  rw [if_pos (started_iff.mpr hs)]
  split
  case h_1 b c more =>
    obtain h | ⟨b', more', hp, hb⟩ := h
    · simp at h
    · obtain ⟨rfl, -⟩ := List.cons.inj hp
      have hcode : endOfCode? b.toNat = none := by
        unfold endOfCode?
        split <;> first | omega | rfl
      rw [hcode]
  case h_2 => rfl

/-- Settles O6: setting, lifting and repeating isolation, and the refusals. -/
theorem isolateSetsAndLifts : Obligations.IsolateSetsAndLifts := by
  refine ⟨fun s mosi hready hpart hbad => ?_, fun s e mosi b c more hc hready hpart hb hbytes =>
    ⟨fun hset hi => ?_, fun hlift hi => ?_, fun hsame => ?_, fun habove => ?_⟩⟩
  · refine congrArg Host.Outcome.next (takeCommand_refused hready .badParameter (isolateCommand_bad hpart ?_))
    obtain h | ⟨b, more, hp, hb⟩ := hbad
    · exact .inl (by rw [List.length_take]; omega)
    · exact .inr ⟨b, more.take 159, by rw [hp, List.take_succ_cons], hb⟩
  all_goals
    have hrun := isolateCommand_eq (s := s.clockOut (8 + mosi.length) []) (c := c) (more := more.take 158) hpart hb
    have hunit := clockOut_chain (8 + mosi.length) [] s e
    have hchains : Chains (s.clockOut (8 + mosi.length) []) := hc.congr (clockOut_chain _ _ s) rfl rfl
  · rw [if_neg (by omega), if_pos hset] at hrun
    obtain ⟨hchain, hreport, hport⟩ := isolate_sets (s := s.clockOut (8 + mosi.length) []) hpart
      (by rw [hunit]; exact hi)
    obtain ⟨hevent, hnow⟩ := isolate_event (e := e) true hchains
    have hpin : (State.isolate e true (s.clockOut (8 + mosi.length) [])).drivePin e = false :=
      drivePin_of_hold (driveHold_off (.inr (by rw [hchain])))
    have hother := hevent.other
    rw [hreport] at hother
    rw [hunit] at hchain
    have hexec : exec (.isolate (.csnRises mosi)) s =
        .next ((State.isolate e true (s.clockOut (8 + mosi.length) [])).leaveAnswer [0x00]) :=
      congrArg Host.Outcome.next (takeCommand_done hready (by
        rw [hbytes, List.take_succ_cons, List.take_succ_cons, hrun]; rfl))
    refine ⟨_, hexec, ?_⟩
    generalize State.isolate e true (s.clockOut (8 + mosi.length) []) = t at *
    have hbus := hevent.bus
    have hcargo := hevent.cargo
    have hgrade := hevent.grade
    have hpending := hevent.pending
    rw [clockOut_zeros] at *
    cases e <;> exact ⟨hchain, hpin, hreport, hother, by simp only [State.leaveAnswer, State.setPort, hport]; rfl,
      hcargo, hgrade, hnow, hpending, hbus⟩
  · rw [if_pos hlift] at hrun
    obtain ⟨hchain, hreport, hport⟩ := isolate_lifts (s := s.clockOut (8 + mosi.length) []) hchains hpart
      (by rw [hunit]; exact hi)
    have hpin := isolate_lifts_pin (s := s.clockOut (8 + mosi.length) []) hchains hpart (by rw [hunit]; exact hi)
    obtain ⟨hevent, hnow⟩ := isolate_event (e := e) false hchains
    have hother := hevent.other
    have hcount : ((State.isolate e false (s.clockOut (8 + mosi.length) [])).report e).count = 0 := by
      rw [hreport]
      split_ifs <;> rfl
    rw [hcount] at hother
    rw [hunit] at hchain hreport hport
    have hexec : exec (.isolate (.csnRises mosi)) s =
        .next ((State.isolate e false (s.clockOut (8 + mosi.length) [])).leaveAnswer [0x00]) :=
      congrArg Host.Outcome.next (takeCommand_done hready (by
        rw [hbytes, List.take_succ_cons, List.take_succ_cons, hrun]; rfl))
    refine ⟨_, hexec, ?_⟩
    generalize State.isolate e false (s.clockOut (8 + mosi.length) []) = t at *
    have hbus := hevent.bus
    have hcargo := hevent.cargo
    have hgrade := hevent.grade
    have hpending := hevent.pending
    rw [clockOut_zeros] at *
    cases e <;> exact ⟨hchain, hreport, hpin, hother, by simp only [State.leaveAnswer, State.setPort, hport]; rfl,
      hcargo, hgrade, hnow, hpending, hbus⟩
  · refine congrArg Host.Outcome.next (takeCommand_answered hready fun u hu => ?_)
    rw [hbytes, List.take_succ_cons, List.take_succ_cons, hu, hrun]
    obtain ⟨hset, hi⟩ | ⟨hlift, hi⟩ := hsame
    · rw [if_neg (by omega), if_pos hset, isolate_same hchains (.inl ⟨rfl, by rw [hunit]; exact hi⟩)]
      rfl
    · rw [if_pos hlift, isolate_same hchains (.inr ⟨rfl, by rw [hunit]; exact hi⟩)]
      rfl
  · refine congrArg Host.Outcome.next (takeCommand_refused hready .badParameter ?_)
    rw [hbytes, List.take_succ_cons, List.take_succ_cons, hrun, if_neg (by omega), if_neg (by omega)]

/-! ## Every chain change is notified (R23) -/

/-- A change of an end's report sets CHAIN, and PARTING where the end comes to PARTING. -/
def Notified (s t : State) : Prop := ∀ e, t.report e ≠ s.report e →
  t.flagSet .chain = true ∧
  ((t.report e).state = .parting → (s.report e).state ≠ .parting → t.flagSet .parting = true)

theorem Notified.of_reports (h : ∀ e, t.report e = s.report e) : Notified s t := fun e hne => absurd (h e) hne

theorem Notified.refl (s : State) : Notified s s := .of_reports fun _ => rfl

theorem Notified.trans {u : State} (h : Notified s t) (h' : Notified t u)
    (hflags : t.port.flags ||| u.port.flags = u.port.flags) : Notified s u := by
  intro e hne
  by_cases htu : u.report e = t.report e
  · rw [htu] at hne ⊢
    obtain ⟨hchain, hparting⟩ := h e hne
    exact ⟨flagSet_of_flags hflags _ hchain, fun hp hn => flagSet_of_flags hflags _ (hparting hp hn)⟩
  · obtain ⟨hchain, hparting⟩ := h' e htu
    refine ⟨hchain, fun hp hn => ?_⟩
    by_cases hmid : (t.report e).state = .parting
    · have hst : t.report e ≠ s.report e := fun heq => hn (by rw [← heq]; exact hmid)
      exact flagSet_of_flags hflags _ ((h e hst).2 hmid hn)
    · exact hparting hp hmid

theorem ends_cases (e e' : End) : e' = e ∨ e' = e.other := by cases e <;> cases e' <;> simp [End.other]

theorem chainFlags_chain {before after : Triple} (h : after ≠ before) (flags : BitVec 15) :
    (flags ||| chainFlags before after).getLsbD Notice.chain.bit = true := by
  rw [chainFlags, if_neg h, BitVec.getLsbD_or]
  split_ifs <;> simp [Notice.bit]

theorem chainFlags_parting {before after : Triple} (h : after.state = .parting) (h' : before.state ≠ .parting)
    (flags : BitVec 15) : (flags ||| chainFlags before after).getLsbD Notice.parting.bit = true := by
  have hne : after ≠ before := fun heq => h' (by rw [← heq]; exact h)
  have hreason : chainReason before after = .parting := if_pos ⟨h, h'⟩
  rw [chainFlags, if_neg hne, if_pos hreason, BitVec.getLsbD_or]
  simp [Notice.bit]

/-- The other end of a changed unit reports as before. -/
theorem changeUnit_report_other (e : End) (f : ChainUnit → ChainUnit) (s : State) :
    (s.changeUnit e f).report e.other = s.report e.other := by
  have hstarted : (s.changeUnit e f).started = s.started := started_congr (by rw [changeUnit_port])
  rw [changeUnit_eq] at hstarted ⊢
  by_cases h : (s.unitChanged e (f (s.chain e))).report e = s.report e
  · rw [chainChanged_same h] at hstarted ⊢
    rw [State.report, hstarted, unitChanged_other]
    rfl
  · rw [chainChanged_ne h] at hstarted ⊢
    rw [State.report, hstarted, trigger_chain, chainNotified_other, unitChanged_other]
    exact reportOf_congr rfl rfl

theorem changeUnit_notified (e : End) (f : ChainUnit → ChainUnit) (s : State) : Notified s (s.changeUnit e f) := by
  intro x hne
  obtain rfl | rfl := ends_cases e x
  · simp only [State.flagSet, changeUnit_port, ← changeUnit_report]
    exact ⟨chainFlags_chain hne _, fun hp hn => chainFlags_parting hp hn _⟩
  · exact absurd (changeUnit_report_other e f s) hne

theorem Move.notified (h : Move True s t) : Notified s t := by
  cases h with
  | controller h hs => exact .of_reports fun e => by rw [State.report, hs trivial, h.chain]; rfl
  | clock d => exact .of_reports fun e => by cases e <;> rfl
  | grade g h => exact .of_reports fun e => by cases e <;> rfl
  | port p hpart =>
    refine .of_reports fun e => ?_
    rw [State.report, started_congr (s := s) (by exact hpart), State.setPort_chain]
    rfl
  | unit e f => exact changeUnit_notified e f s
  | boundary e d =>
    refine .of_reports fun x => ?_
    rw [State.report, setChain_started]
    obtain rfl | rfl := ends_cases e x
    · rw [State.chain_setChain_same]
      exact reportOf_congr rfl rfl
    · rw [setChain_chain_ne (by simp)]
      rfl

theorem Moves.notified (h : Moves True s t) : Notified s t := by
  induction h with
  | refl => exact .refl s
  | tail _ hmove ih => exact ih.trans hmove.notified hmove.flags

/-- START makes the chain changes of the ends whose release input is asserted. -/
theorem begin_notified (hs : s.started = false) (hidle : s.comp.state = .idle) : Notified s s.begin := by
  intro e hne
  have hbefore : s.report e = ⟨.openEnd, 0, none⟩ := by simp [State.report, reportOf, hs]
  have hchain : s.begin.chain e = (s.chain e).begun s.now := by
    rw [begin_of_idle hidle, begunQuiet_eq hidle]
    cases e <;> rfl
  have hstarted : s.begin.started = true := by
    rw [begin_of_idle hidle, begunQuiet_eq hidle]
    rfl
  have hflags : s.begin.port.flags =
      if s.chainA.release || s.chainB.release then s.port.flags ||| 0x000C#15 else s.port.flags := by
    rw [begin_of_idle hidle]
  have hrelease : (s.chain e).release = true := by
    by_contra hno
    rw [begunUnit_report hchain hstarted, if_neg hno] at hne
    exact hne hbefore.symm
  have hsome : (s.chainA.release || s.chainB.release) = true := by
    cases e
    · exact Bool.or_eq_true_iff.mpr (.inl hrelease)
    · exact Bool.or_eq_true_iff.mpr (.inr hrelease)
  simp only [State.flagSet, hflags, hsome, if_true, BitVec.getLsbD_or]
  simp [Notice.bit]

theorem setPort_notified {u : State} {p : Port} (hp : u.port.Transacts p) : Notified u (u.setPort p) :=
  .of_reports fun e => by
    rw [State.report, started_congr (s := u) (by rw [State.setPort_port, hp]), State.setPort_chain]
    rfl

/-- A command that notifies its chain changes notifies them where it is taken. -/
theorem takeCommand_notified (x : Transfer) {run : List Byte → State → State × List Byte}
    (hrun : ∀ p u, u.started = s.started → u.comp = s.comp → (∀ e, u.report e = s.report e) → Notified s (run p u).1) :
    Notified s (s.takeCommand x run) := by
  obtain he | he | ⟨-, n, he | he | ⟨-, p, he⟩⟩ := takeCommand_cases x run s
  all_goals rw [he]
  · obtain hf | ⟨p, hp, hf⟩ := csnFalls_cases s <;> rw [hf]
    · exact .refl s
    · exact setPort_notified hp
  · exact .refl s
  · exact setPort_notified (p := (s.clockOut n []).port) rfl
  · exact setPort_notified (p := (s.clockOut n []).overrun.port) rfl
  · refine (hrun p (s.clockOut n []) rfl rfl fun e => by cases e <;> rfl).trans (.of_reports fun e => ?_)
      (by rw [State.leaveAnswer, State.setPort_port]; exact BitVec.or_self)
    cases e <;> rfl

theorem restart_report (hs : s.started = true) (e : End) : s.restart.report e = s.report e := by
  have hstarted : s.restart.started = true := by rw [restart_eq]; rfl
  rw [State.report, hstarted, restart_chain, ← hs]
  rfl

theorem configure_report (p : List Byte) (s : State) (e : End) : (s.configure p).1.report e = s.report e := by
  obtain h | ⟨-, i, mask, h, -⟩ := configure_cases p s <;> rw [h]
  cases e <;> rfl

theorem exec_notified {c : Instr} (hm : Modes s) (hreset : ∀ edge, c ≠ .hardwareReset edge) (he : exec c s = .next t) :
    Notified s t := by
  obtain hc | ⟨x, rfl⟩ | ⟨x, rfl⟩ | ⟨edge, rfl⟩ := ordinary_or c
  · by_cases hstart : ∃ x, c = .start x
    · obtain ⟨x, rfl⟩ := hstart
      refine Host.Outcome.next.inj he ▸ takeCommand_notified x fun p u hu hcomp hreport => ?_
      unfold State.startCommand
      split
      · exact .of_reports hreport
      · split
        · exact .of_reports hreport
        · rename_i hno _
          have hidle : u.comp.state = .idle := by
            rw [hcomp, hm.idleIff]
            rw [hu] at hno
            simpa [State.started] using hno
          exact Notified.trans (.of_reports hreport) (begin_notified (by simpa using hno) hidle) (begin_flags u)
    · by_cases hread : ∃ x, c = .readEvents x
      · obtain ⟨x, rfl⟩ := hread
        refine Host.Outcome.next.inj he ▸ takeCommand_notified x fun p u _ _ hreport => .of_reports fun e => ?_
        exact Eq.trans (by cases e <;> rfl) (hreport e)
      · exact (exec_moves (awake := True) hc (fun x hx => hstart ⟨x, hx⟩) (fun x hx => hread ⟨x, hx⟩) (fun _ => hm) he).notified
  · exact Host.Outcome.next.inj he ▸ takeCommand_notified x fun p u _ _ hreport =>
      .of_reports fun e => (configure_report p u e).trans (hreport e)
  · refine Host.Outcome.next.inj he ▸ takeCommand_notified x fun p u _ _ hreport => .of_reports fun e => ?_
    unfold State.restartCommand
    split
    · rename_i hs
      exact (restart_report hs e).trans (hreport e)
    · exact hreport e
  · exact absurd rfl (hreset edge)

/-! ## The trigger of a chain change -/

theorem ChainTrigger.of_advanced {w : Ticks} (h : ChainTrigger (s.advanceTo w) t e) : ChainTrigger s t e := by
  obtain ⟨hquiet, hraised, hhalted⟩ := h
  cases e <;> exact ⟨hquiet, hraised, hhalted⟩

/-- An event of a decoder makes the trigger of the chain change it makes. -/
theorem decoderEvent_trigger {w : Ticks} {f : Decoder → Decoder}
    (hne : ((s.advanceTo w).decoderEvent e f).report e ≠ s.report e) :
    ChainTrigger s ((s.advanceTo w).decoderEvent e f) e := by
  have hreport : (s.advanceTo w).report e = s.report e := by cases e <;> rfl
  unfold State.decoderEvent at hne ⊢
  split at hne
  · rename_i hs
    rw [if_pos hs]
    exact (changeUnit_trigger e _ (by rw [hreport]; exact hne)).of_advanced
  · exact absurd hreport hne

theorem ChainTrigger.leaveAnswer {a : List Byte} (h : ChainTrigger s t e) : ChainTrigger s (t.leaveAnswer a) e := by
  obtain ⟨hquiet, hraised, hhalted⟩ := h
  cases e <;> exact ⟨hquiet, fun hs => (hraised hs).leaveAnswer a, hhalted⟩

theorem isolate_trigger {on : Bool} (n : Nat)
    (hne : ((s.clockOut n []).isolate e on).report e ≠ s.report e) :
    ChainTrigger s ((s.clockOut n []).isolate e on) e := by
  have hreport : (s.clockOut n []).report e = s.report e := by cases e <;> rfl
  obtain ⟨hquiet, hraised, hhalted⟩ := changeUnit_trigger (s := s.clockOut n []) e _ (by rw [hreport]; exact hne)
  cases e <;> exact ⟨hquiet, hraised, hhalted⟩

theorem isolateCommand_trigger {n : Nat} {b : Byte} {rest : List Byte} (hb : b.toNat = if e = .a then 0 else 1)
    (hne : (State.isolateCommand (b :: rest) (s.clockOut n [])).1.report e ≠ s.report e) :
    ChainTrigger s (State.isolateCommand (b :: rest) (s.clockOut n [])).1 e := by
  have hreport : (s.clockOut n []).report e = s.report e := by cases e <;> rfl
  unfold State.isolateCommand at hne ⊢
  split at hne
  case isFalse => exact absurd hreport hne
  case isTrue hs =>
    rw [if_pos hs]
    cases rest with
    | nil => exact absurd hreport hne
    | cons c more =>
      simp only [endOfCode?_eq hb] at hne ⊢
      split_ifs at hne ⊢
      · exact isolate_trigger n hne
      · exact isolate_trigger n hne
      · exact absurd hreport hne

theorem exec_isolate_trigger {b : Byte} {rest : List Byte} (hbytes : wholeBytes mosi = b :: rest)
    (hb : b.toNat = if e = .a then 0 else 1) (he : exec (.isolate (.csnRises mosi)) s = .next t)
    (hne : t.report e ≠ s.report e) : ChainTrigger s t e := by
  obtain rfl := Host.Outcome.next.inj he
  by_cases hcsn : s.port.csn.isSome = true
  · cases hbusy : s.port.busy with
    | true =>
      rw [takeCommand_busy hcsn hbusy] at hne
      exact absurd (by cases e <;> rfl) hne
    | false =>
      rw [takeCommand_ready ⟨hcsn, hbusy⟩, hbytes, List.take_succ_cons] at hne ⊢
      refine (isolateCommand_trigger hb fun h => hne ?_).leaveAnswer
      rw [← h]
      cases e <;> rfl
  · have hnone : s.port.csn = none := by simpa using hcsn
    rw [State.takeCommand, transfer_none (x := .csnRises mosi) hnone nofun] at hne
    exact absurd rfl hne

/-- An event of the chain units, or ISOLATE, makes the trigger of the chain change it makes. -/
theorem exec_trigger {c : Instr} (hc : actsOnEnd c e) (he : exec c s = .next t) (hne : t.report e ≠ s.report e) :
    ChainTrigger s t e := by
  obtain ⟨p, h, rfl⟩ | rfl | rfl | rfl | rfl | rfl | ⟨mosi, b, rest, rfl, hbytes, hb⟩ := hc
  case inr.inr.inr.inr.inr.inr => exact exec_isolate_trigger hbytes hb he hne
  case inl =>
    simp only [exec, execCompletedPeriod] at he
    split at he <;> obtain rfl := Host.Outcome.next.inj he
    · exact decoderEvent_trigger hne
    · exact absurd rfl hne
  case inr.inl =>
    simp only [exec, execLoss] at he
    split at he <;> obtain rfl := Host.Outcome.next.inj he
    · exact decoderEvent_trigger hne
    · exact absurd rfl hne
  case inr.inr.inl =>
    simp only [exec, execPartingSensed] at he
    split at he <;> obtain rfl := Host.Outcome.next.inj he
    · exact decoderEvent_trigger hne
    · exact absurd rfl hne
  case inr.inr.inr.inl =>
    simp only [exec, execStuckHigh] at he
    split at he
    · obtain rfl := Host.Outcome.next.inj he
      exact absurd rfl hne
    · split at he <;> obtain rfl := Host.Outcome.next.inj he
      · exact decoderEvent_trigger hne
      · exact absurd rfl hne
  case inr.inr.inr.inr.inl =>
    obtain rfl := Host.Outcome.next.inj he
    exact changeUnit_trigger e _ hne
  case inr.inr.inr.inr.inr.inl =>
    obtain rfl := Host.Outcome.next.inj he
    exact changeUnit_trigger e _ hne

/-- Settles O21: every command is a sequence of moves that notify their chain changes, and every step keeps the other
end's generator in step; the trigger is that of the changed unit. -/
theorem chainChangeIsNotified : Obligations.ChainChangeIsNotified := by
  refine ⟨fun c s t e hsafe hreset he hne => ?_, fun c s t e _ hc he hne => exec_trigger hc he hne⟩
  obtain ⟨hchain, hparting⟩ := exec_notified hsafe.modes hreset he e hne
  have hchains := (exec_chains hsafe.modes ⟨hsafe.chains, hsafe.image⟩ he).1
  have hfollows := ((chainOk_iff e.other).mp (hchains e.other)).2
  rw [End.other_other] at hfollows
  have hcount : (t.report e).count ≤ 16 := report_count_le (hchains e).dec
  exact ⟨hchain, hparting, hfollows.1, hfollows.2.trans (decide_eq_decide.mpr (by omega))⟩

end Sys2Proof.Machine
end

section
/-! The idle count of a receiver on a whole frame is its sender's (R26, R27). -/

namespace Sys2Proof.Machine

variable {f : Frame} {permitted : BitVec 4} {r r' : Rx} {rest : List Bool} {k : Nat} {b : Bool}

/-! ## Stuffing -/

/-- After a run of five the stuff bit begins a run of its own (R28). -/
theorem stuffFrom_five (last : Bool) (bits : List Bool) :
    stuffFrom last 5 bits = (!last) :: stuffFrom (!last) 1 bits := by
  cases bits <;> rfl

theorem stuffFrom_cons {last : Bool} {run : Nat} (hrun : run ≠ 5) (bits : List Bool) :
    stuffFrom last run (b :: bits) = b :: stuffFrom b (if b = last then run + 1 else 1) bits := by
  rw [stuffFrom, if_neg hrun]

theorem stuffFrom_nil {last : Bool} {run : Nat} (hrun : run ≠ 5) : stuffFrom last run [] = [] := by
  rw [stuffFrom, if_neg hrun]

theorem Frame.wireBits_length (f : Frame) : f.wireBits.length = f.stuffedBits.length + 7 := by
  rw [Frame.wireBits, List.length_append, List.length_replicate]

/-! ## The run of recessive bits -/

theorem Frame.recessiveBefore_succ {bits : List Bool} (h : f.wireBits.drop k = b :: bits) :
    f.recessiveBefore (k + 1) = if b then f.recessiveBefore k + f.bitTimeAt k else 0 := by
  have hbit : f.wireBits[k]? = some b := by rw [← List.head?_drop, h]; rfl
  rw [Frame.recessiveBefore, hbit]
  cases b <;> rfl

theorem Rx.judge_recessive (h : r.judge permitted = .more r') : r'.recessive = r.recessive := by
  unfold Rx.judge Rx.judgeCrc at h
  split_ifs at h <;> cases h <;> rfl

theorem Rx.judgeBit_recessive (h : r.judgeBit permitted b = .more r') : r'.recessive = r.recessive := by
  unfold Rx.judgeBit Rx.judgeCrc at h
  split_ifs at h
  all_goals first | (cases h; rfl) | exact Eq.trans (Rx.judge_recessive h) rfl

theorem Rx.step_recessive (h : r.step permitted b = .more r') :
    r'.recessive = if b then r.recessive + r.nextBitTime else 0 := by
  rw [Rx.judgeBit_recessive h]
  rfl

theorem Rx.idleAfter_cons {bits : List Bool} (h : r.step permitted b = .more r') :
    r.idleAfter permitted (b :: bits) = r'.idleAfter permitted bits := by
  rw [Rx.idleAfter, h]

theorem Rx.idleAfter_complete {bits : List Bool} (h : r.step permitted b = .complete f) :
    r.idleAfter permitted (b :: bits) = (r.hear b).untilIdle := by
  rw [Rx.idleAfter, h]

/-! ## A receiver and its sender at the same wire bit -/

/-- The receiver awaits wire bit `k` of `f`, with the content bits `rest` to come, and has heard the recessive run
that its sender sent. -/
structure Rx.Follows (f : Frame) (rest : List Bool) (k : Nat) (r : Rx) : Prop where
  awaits    : r.Awaits f rest
  wire      : f.wireBits.drop k = stuffFrom r.last r.run rest ++ List.replicate 7 true
  header    : r.taken.length ≤ 45 →
                k + (stuffFrom r.last r.run (rest.take (45 - r.taken.length))).length = f.headerLength
  body      : 45 < r.taken.length → f.headerLength ≤ k
  recessive : r.recessive = f.recessiveBefore k

theorem Rx.Follows.start (f : Frame) : Rx.afterStart.Follows f f.contentBits 1 where
  awaits := .start f
  wire := f.wireBits_drop_start
  header _ := rfl
  body h := absurd h (Nat.not_lt_zero 45)
  recessive := rfl

/-- The wire bits still to come. -/
theorem Rx.Follows.stuffed (h : r.Follows f rest k) :
    k + (stuffFrom r.last r.run rest).length = f.stuffedBits.length := by
  have hlength := congrArg List.length h.wire
  rw [List.length_drop, List.length_append, List.length_replicate, f.wireBits_length] at hlength
  omega

/-- The receiver times the next wire bit as its sender does (R27). -/
theorem Rx.Follows.nextBitTime (h : r.Follows f rest k) (hf : f.Readable permitted) :
    r.nextBitTime = f.bitTimeAt k := by
  have hlength := h.awaits.length
  have hstuffed := h.stuffed
  have hdone := h.awaits.contentComplete_iff hf
  unfold Rx.nextBitTime Frame.bitTimeAt
  simp only [h.awaits.waiting, Bool.or_false, decide_eq_true_eq]
  by_cases hrun : r.run = 5
  · rw [hrun, stuffFrom_five, List.length_cons] at hstuffed
    simp only [hrun, if_true, ne_eq, not_true_eq_false, decide_false, Bool.false_and, Bool.false_eq_true, if_false]
    by_cases hhead : r.taken.length ≤ 45
    · have hheader := h.header hhead
      rw [hrun, stuffFrom_five, List.length_cons] at hheader
      rw [if_pos (show r.taken.length - 1 < 45 by omega), if_pos (show k < f.headerLength by omega)]
    · have hbody := h.body (by omega)
      rw [if_neg (show ¬ r.taken.length - 1 < 45 by omega), if_neg (show ¬ k < f.headerLength by omega),
        if_pos (show k < f.stuffedBits.length by omega), h.awaits.field_grade (by omega), Grade.ofCode_code]
  · simp only [hrun, if_false, ne_eq, not_false_eq_true, decide_true, Bool.true_and, hdone]
    by_cases hhead : r.taken.length < 45
    · have hheader := h.header (by omega)
      obtain ⟨x, xs, hx⟩ : ∃ x xs, rest.take (45 - r.taken.length) = x :: xs := by
        refine List.exists_cons_of_ne_nil fun hnil => ?_
        have := congrArg List.length hnil
        rw [List.length_take, List.length_nil] at this
        omega
      rw [hx, stuffFrom_cons hrun, List.length_cons] at hheader
      rw [if_pos hhead, if_pos (show k < f.headerLength by omega)]
    · have hbody : f.headerLength ≤ k := by
        by_cases hfive : r.taken.length = 45
        · have hheader := h.header hfive.le
          rw [hfive, Nat.sub_self, List.take_zero, stuffFrom_nil hrun, List.length_nil] at hheader
          omega
        · exact h.body (by omega)
      rw [if_neg hhead, if_neg (not_lt.mpr hbody)]
      cases rest with
      | nil =>
        rw [stuffFrom_nil hrun, List.length_nil] at hstuffed
        rw [if_pos rfl, if_neg (show ¬ k < f.stuffedBits.length by omega)]
      | cons x xs =>
        rw [stuffFrom_cons hrun, List.length_cons] at hstuffed
        rw [if_neg (List.cons_ne_nil x xs), if_pos (show k < f.stuffedBits.length by omega),
          h.awaits.field_grade (by omega), Grade.ofCode_code]

/-- The run of recessive bits after another wire bit. -/
theorem Rx.Follows.hear {bits : List Bool} (h : r.Follows f rest k) (hf : f.Readable permitted)
    (hwire : f.wireBits.drop k = b :: bits) (hstep : r.step permitted b = .more r') :
    r'.recessive = f.recessiveBefore (k + 1) := by
  rw [Rx.step_recessive hstep, Frame.recessiveBefore_succ hwire, h.nextBitTime hf, h.recessive]

theorem Rx.Follows.stuffBit (h : r.Follows f rest k) (hf : f.Readable permitted) (hrun : r.run = 5) :
    ∃ r', r.step permitted (!r.last) = .more r' ∧ r'.Follows f rest (k + 1) ∧ r'.last = (!r.last) ∧ r'.run = 1 := by
  obtain ⟨x, hstep, hx, hlast, hone⟩ := h.awaits.step_stuffBit hf hrun
  have hwire := h.wire
  rw [hrun, stuffFrom_five, List.cons_append] at hwire
  have htaken : x.taken.length = r.taken.length := by
    have := h.awaits.length
    have := hx.length
    omega
  refine ⟨x, hstep, ⟨hx, ?_, fun hle => ?_, fun hlt => ?_, h.hear hf hwire hstep⟩, hlast, hone⟩
  · rw [hlast, hone, ← List.drop_drop, hwire]
    rfl
  · have hheader := h.header (by omega)
    rw [hrun, stuffFrom_five, List.length_cons] at hheader
    rw [hlast, hone, htaken]
    omega
  · have := h.body (by omega)
    omega

theorem Rx.Follows.take (h : r.Follows f (b :: rest) k) (hf : f.Readable permitted) (hrun : r.run ≠ 5) :
    ∃ r', r.step permitted b = .more r' ∧ r'.Follows f rest (k + 1) ∧ r'.last = b ∧
      r'.run = if b = r.last then r.run + 1 else 1 := by
  obtain ⟨x, hstep, hx, hlast, hone⟩ := h.awaits.step_take hf hrun
  have hwire := h.wire
  rw [stuffFrom_cons hrun, List.cons_append] at hwire
  have htaken : x.taken.length = r.taken.length + 1 := by
    have := h.awaits.length
    have := hx.length
    rw [List.length_cons] at *
    omega
  refine ⟨x, hstep, ⟨hx, ?_, fun hle => ?_, fun hlt => ?_, h.hear hf hwire hstep⟩, hlast, hone⟩
  · rw [hlast, hone, ← List.drop_drop, hwire]
    rfl
  · have hheader := h.header (by omega)
    rw [show 45 - r.taken.length = (45 - x.taken.length) + 1 by omega, List.take_succ_cons, stuffFrom_cons hrun,
      List.length_cons] at hheader
    rw [hlast, hone]
    omega
  · by_cases hfive : r.taken.length = 45
    · have hheader := h.header hfive.le
      rw [hfive, Nat.sub_self, List.take_zero, stuffFrom_nil hrun, List.length_nil] at hheader
      omega
    · have := h.body (by omega)
      omega

/-! ## The count to idle -/

/-- In the end field both count G1 bits. -/
theorem Rx.idleAfter_endField {j : Nat} (hdone : r.contentComplete = true) (hrun : r.run ≠ 5)
    (hwaiting : r.waiting = false) (hcount : r.endBits + j = 6) (hwire : f.wireBits.drop k = List.replicate (j + 1) true)
    (hk : f.stuffedBits.length ≤ k) (hhead : f.headerLength ≤ k) (hrecessive : r.recessive = f.recessiveBefore k) :
    r.idleAfter permitted (List.replicate (j + 1) true) = f.idleAfter (f.wireBits.length - 1) := by
  have htime : r.nextBitTime = f.bitTimeAt k := by
    have hlong : ¬ r.taken.length < 45 := by
      simp only [Rx.contentComplete, Bool.and_eq_true, decide_eq_true_eq] at hdone
      omega
    unfold Rx.nextBitTime Frame.bitTimeAt
    simp only [hwaiting, hrun, hdone, hlong, not_lt.mpr hk, not_lt.mpr hhead, decide_false, Bool.or_false,
      Bool.false_eq_true, if_false, ne_eq, not_false_eq_true, decide_true, Bool.and_self, if_true]
  induction j generalizing r k with
  | zero =>
    have hlast : r.step permitted true = .complete r.frame :=
      (Rx.judgeBit_endField (r := r.hear true) hwaiting hrun hdone).trans (if_pos hcount)
    have hend : f.wireBits.length - 1 = k := by
      have := congrArg List.length hwire
      rw [List.length_drop, List.length_replicate] at this
      omega
    rw [List.replicate_one, Rx.idleAfter_complete hlast, hend]
    simp only [Rx.untilIdle, Rx.hear, if_true, Frame.idleAfter, htime, hrecessive]
  | succ j ih =>
    have hnext : r.step permitted true = .more { r.hear true with endBits := r.endBits + 1 } :=
      (Rx.judgeBit_endField (r := r.hear true) hwaiting hrun hdone).trans
        (if_neg (show r.endBits ≠ 6 by omega))
    rw [List.replicate_succ] at hwire
    rw [List.replicate_succ, Rx.idleAfter_cons hnext]
    refine ih (k := k + 1) hdone hrun hwaiting (show r.endBits + 1 + j = 6 by omega) ?_ (by omega) (by omega) ?_ ?_
    · rw [← List.drop_drop, hwire]
      rfl
    · rw [Rx.step_recessive hnext, Frame.recessiveBefore_succ hwire, htime, hrecessive]
    · unfold Rx.nextBitTime at htime ⊢
      refine Eq.trans htime ?_
      unfold Frame.bitTimeAt
      rw [if_neg (not_lt.mpr hhead), if_neg (not_lt.mpr hk), if_neg (show ¬ k + 1 < f.headerLength by omega),
        if_neg (show ¬ k + 1 < f.stuffedBits.length by omega)]

theorem Rx.Follows.idleAfter_rest (h : r.Follows f rest k) (hf : f.Readable permitted) :
    r.idleAfter permitted (stuffFrom r.last r.run rest ++ List.replicate 7 true) =
      f.idleAfter (f.wireBits.length - 1) := by
  induction rest generalizing r k with
  | nil =>
    have ends {x : Rx} {j : Nat} (hx : x.Follows f [] j) (hrun : x.run ≠ 5) :
        x.idleAfter permitted (List.replicate 7 true) = f.idleAfter (f.wireBits.length - 1) := by
      have hwire := hx.wire
      have hstuffed := hx.stuffed
      have hlength := hx.awaits.length
      rw [stuffFrom_nil hrun] at hwire hstuffed
      rw [List.length_nil] at hstuffed hlength
      exact Rx.idleAfter_endField ((hx.awaits.contentComplete_iff hf).mpr rfl) hrun hx.awaits.waiting
        (by rw [hx.awaits.endBits]) hwire hstuffed.ge (hx.body (by omega)) hx.recessive
    by_cases hrun : r.run = 5
    · obtain ⟨x, hstep, hx, -, hone⟩ := h.stuffBit hf hrun
      rw [stuffFrom, if_pos hrun, List.singleton_append, Rx.idleAfter_cons hstep]
      exact ends hx (by omega)
    · rw [stuffFrom_nil hrun, List.nil_append]
      exact ends h hrun
  | cons b rest ih =>
    have takes {x : Rx} {j : Nat} (hx : x.Follows f (b :: rest) j) (hrun : x.run ≠ 5) :
        x.idleAfter permitted (stuffFrom x.last x.run (b :: rest) ++ List.replicate 7 true) =
          f.idleAfter (f.wireBits.length - 1) := by
      obtain ⟨y, hstep, hy, hlast, hnext⟩ := hx.take hf hrun
      have hgoes := ih hy
      rw [hlast, hnext] at hgoes
      rw [stuffFrom_cons hrun, List.cons_append, Rx.idleAfter_cons hstep]
      exact hgoes
    by_cases hrun : r.run = 5
    · obtain ⟨x, hstep, hx, hlast, hone⟩ := h.stuffBit hf hrun
      have hgoes := takes hx (by omega)
      rw [hlast, hone] at hgoes
      rw [hrun, stuffFrom_five, List.cons_append, Rx.idleAfter_cons hstep]
      exact hgoes
    · exact takes h hrun

/-- A receiver of a whole frame counts to idle as its sender does. -/
theorem Rx.idleAfter_wireBits (hf : f.Readable permitted) :
    Rx.afterStart.idleAfter permitted (f.wireBits.drop 1) = f.idleAfter (f.wireBits.length - 1) := by
  rw [f.wireBits_drop_start]
  exact (Rx.Follows.start f).idleAfter_rest hf

/-- Settles O22, by the receiver that follows its sender bit by bit. -/
theorem receiverReadsWireBits : Obligations.ReceiverReadsWireBits :=
  fun _ _ hf => ⟨Rx.feed_wireBits hf, Rx.idleAfter_wireBits hf⟩

end Sys2Proof.Machine
end

section
/-! The bodies of composition and cargo frames, written and read (R53, R130, R141, R173 to R175). -/

namespace Sys2Proof.Machine

/-! ## Bytes and words -/

theorem append_toNat {m n : Nat} (a : BitVec m) (b : BitVec n) : (a ++ b).toNat = a.toNat * 2 ^ n + b.toNat := by
  rw [BitVec.toNat_append, ← Nat.shiftLeft_add_eq_or_of_lt b.isLt, Nat.shiftLeft_eq]

theorem word16_toNat (a b : Byte) : (word16 a b).toNat = a.toNat * 256 + b.toNat := append_toNat a b

theorem word32_toNat (a b c d : Byte) :
    (word32 a b c d).toNat = ((a.toNat * 256 + b.toNat) * 256 + c.toNat) * 256 + d.toNat := by
  simp only [word32, append_toNat, Nat.reducePow]

theorem extract_toNat {n : Nat} (x : BitVec n) (i : Nat) : (x.extractLsb' i 8).toNat = x.toNat / 2 ^ i % 256 := by
  rw [BitVec.extractLsb'_toNat, Nat.shiftRight_eq_div_pow]

theorem word16_bytes16 (x : BitVec 16) : word16 (x.extractLsb' 8 8) (x.extractLsb' 0 8) = x := by
  have := x.isLt
  refine BitVec.eq_of_toNat_eq ?_
  simp only [word16_toNat, extract_toNat]
  omega

theorem bytes16_word16 (a b : Byte) : bytes16 (word16 a b) = [a, b] := by
  have := a.isLt
  have := b.isLt
  have hupper : (word16 a b).extractLsb' 8 8 = a :=
    BitVec.eq_of_toNat_eq (by simp only [word16_toNat, extract_toNat]; omega)
  have hlower : (word16 a b).extractLsb' 0 8 = b :=
    BitVec.eq_of_toNat_eq (by simp only [word16_toNat, extract_toNat]; omega)
  rw [bytes16, hupper, hlower]

theorem word32_bytes32 (x : BitVec 32) :
    word32 (x.extractLsb' 24 8) (x.extractLsb' 16 8) (x.extractLsb' 8 8) (x.extractLsb' 0 8) = x := by
  have := x.isLt
  refine BitVec.eq_of_toNat_eq ?_
  simp only [word32_toNat, extract_toNat]
  omega

theorem bytes32_word32 (a b c d : Byte) : bytes32 (word32 a b c d) = [a, b, c, d] := by
  have := a.isLt
  have := b.isLt
  have := c.isLt
  have := d.isLt
  have h3 : (word32 a b c d).extractLsb' 24 8 = a :=
    BitVec.eq_of_toNat_eq (by simp only [word32_toNat, extract_toNat]; omega)
  have h2 : (word32 a b c d).extractLsb' 16 8 = b :=
    BitVec.eq_of_toNat_eq (by simp only [word32_toNat, extract_toNat]; omega)
  have h1 : (word32 a b c d).extractLsb' 8 8 = c :=
    BitVec.eq_of_toNat_eq (by simp only [word32_toNat, extract_toNat]; omega)
  have h0 : (word32 a b c d).extractLsb' 0 8 = d :=
    BitVec.eq_of_toNat_eq (by simp only [word32_toNat, extract_toNat]; omega)
  rw [bytes32, h3, h2, h1, h0]

theorem byteOf_toNat {n : Nat} (h : n < 256) : (byteOf n).toNat = n := by
  rw [byteOf, BitVec.toNat_ofNat, Nat.mod_eq_of_lt h]

theorem byteOf_of_toNat (b : Byte) : byteOf b.toNat = b := by
  rw [byteOf, BitVec.ofNat_toNat, BitVec.setWidth_eq]

/-! ## End pairs (R174) -/

/-- The second byte of an end pair: the mark above facing type and count. -/
theorem markedByte_toNat (mark : Bool) {n : Nat} (h : n < 128) :
    (bitAt mark 7 ||| byteOf n).toNat = (if mark then 128 else 0) + n := by
  rw [BitVec.toNat_or, byteOf_toNat (by omega)]
  cases mark with
  | false => exact (Nat.zero_or n).trans (Nat.zero_add n).symm
  | true => exact (Nat.two_pow_add_eq_or_of_lt (i := 7) h 1).symm

theorem getLsbD_seven (b : Byte) : b.getLsbD 7 = decide (b.toNat / 128 % 2 = 1) := Nat.testBit_eq_decide_div_mod_eq

theorem EndState.ofCode?_eq {n : Nat} {x : EndState} : EndState.ofCode? n = some x ↔ x.code = n := by
  constructor
  · intro h
    unfold EndState.ofCode? at h
    split at h <;> cases h <;> rfl
  · rintro rfl
    cases x <;> rfl

theorem facingOfCode?_eq {n : Nat} {x : Option End} : facingOfCode? n = some x ↔ facingCode x = n := by
  constructor
  · intro h
    unfold facingOfCode? at h
    split at h <;> cases h <;> rfl
  · rintro rfl
    obtain _ | e := x
    · rfl
    · cases e <;> rfl

theorem PayloadMax.ofCode?_eq {n : Nat} {x : PayloadMax} : PayloadMax.ofCode? n = some x ↔ x.code = n := by
  constructor
  · intro h
    unfold PayloadMax.ofCode? at h
    split at h <;> cases h <;> rfl
  · rintro rfl
    exact x.ofCode?_code

theorem EndState.code_le (x : EndState) : x.code ≤ 4 := by cases x <;> decide

theorem facingCode_le (x : Option End) : facingCode x ≤ 2 := by
  obtain _ | e := x
  · decide
  · cases e <;> decide

theorem EndPair.ofBytes?_bytes {p : EndPair} (h : p.report.count ≤ 16) :
    EndPair.ofBytes? (byteOf p.report.state.code)
      (bitAt p.saturated 7 ||| byteOf (32 * facingCode p.report.facing + p.report.count % 32)) = some p := by
  have hcode := p.report.state.code_le
  have hfacing := facingCode_le p.report.facing
  have hbyte := markedByte_toNat p.saturated (n := 32 * facingCode p.report.facing + p.report.count % 32) (by omega)
  unfold EndPair.ofBytes?
  rw [byteOf_toNat (by omega), getLsbD_seven, hbyte, if_neg (by omega), EndState.ofCode?_eq.mpr rfl,
    (facingOfCode?_eq (x := p.report.facing)).mpr (by split_ifs <;> omega)]
  have hcount : ((if p.saturated = true then 128 else 0) + (32 * facingCode p.report.facing + p.report.count % 32)) % 32 =
      p.report.count := by split_ifs <;> omega
  have hmark : decide (((if p.saturated = true then 128 else 0) +
      (32 * facingCode p.report.facing + p.report.count % 32)) / 128 % 2 = 1) = p.saturated := by
    cases p.saturated
    · rw [decide_eq_false_iff_not, if_neg Bool.false_ne_true]
      omega
    · rw [decide_eq_true_eq, if_pos rfl]
      omega
  dsimp only
  rw [hcount, hmark, if_pos h]

/-- What is read of two bytes is written as them. -/
theorem EndPair.bytes_ofBytes? {a b : Byte} {p : EndPair} (h : EndPair.ofBytes? a b = some p) :
    p.bytes = [a, b] ∧ p.report.count ≤ 16 := by
  have hb := b.isLt
  unfold EndPair.ofBytes? at h
  split at h
  · cases h
  · split at h
    · rename_i st fa hst hfa
      split_ifs at h with hcount
      obtain rfl := Option.some.inj h
      have hfacing := facingOfCode?_eq.mp hfa
      have hstate := EndState.ofCode?_eq.mp hst
      refine ⟨?_, hcount⟩
      have hsecond : bitAt (b.getLsbD 7) 7 ||| byteOf (32 * facingCode fa + b.toNat % 32 % 32) = b := by
        refine BitVec.eq_of_toNat_eq ?_
        rw [markedByte_toNat _ (by have := facingCode_le fa; omega), hfacing, getLsbD_seven]
        simp only [decide_eq_true_eq]
        split_ifs <;> omega
      rw [EndPair.bytes, hsecond, hstate, byteOf_of_toNat]
    · cases h

/-! ## Offers, confirms and presences (R53, R174) -/

/-- A triple that some end can report, said by its cases. -/
theorem Triple.reportable_iff (t : Triple) : t.reportable = true ↔
    (t.state ≠ .held ∧ t.count = 0 ∧ t.facing = none) ∨
      (t.state = .held ∧ 1 ≤ t.count ∧ t.count ≤ 16 ∧ t.facing ≠ none) := by
  obtain ⟨state, count, facing⟩ := t
  cases state <;> simp [Triple.reportable, Option.isSome_iff_ne_none, and_assoc]

theorem Triple.count_le {t : Triple} (h : t.reportable = true) : t.count ≤ 16 := by
  obtain ⟨-, hc, -⟩ | ⟨-, -, hc, -⟩ := (t.reportable_iff).mp h <;> omega

theorem OfferFields.wellFormed_iff (o : OfferFields) : o.wellFormed = true ↔
    o.endA.report.reportable = true ∧ o.endB.report.reportable = true ∧
    (o.endA.saturated = true → o.endB.report.count = 16) ∧
    (o.endB.saturated = true → o.endA.report.count = 16) := by
  unfold OfferFields.wellFormed
  cases o.endA.saturated <;> cases o.endB.saturated <;> simp [and_assoc]

theorem OfferCab.code_lt (x : OfferCab) : x.code < 4 := by cases x <;> decide
theorem OfferCab.ofCode_code (x : OfferCab) : OfferCab.ofCode x.code = x := by cases x <;> rfl
theorem PayloadMax.code_lt (x : PayloadMax) : x.code < 4 := by cases x <;> decide

theorem OfferCab.code_ofCode {n : Nat} (h : n < 4) : (OfferCab.ofCode n).code = n := by
  obtain rfl | rfl | rfl | rfl : n = 0 ∨ n = 1 ∨ n = 2 ∨ n = 3 := by omega
  all_goals rfl

theorem Grade.code_ofCode {n : Nat} (h : n < 4) : (Grade.ofCode n).code = n := by
  obtain rfl | rfl | rfl | rfl : n = 0 ∨ n = 1 ∨ n = 2 ∨ n = 3 := by omega
  all_goals rfl

theorem offerOfBody?_body {o : OfferFields} (h : o.wellFormed = true) :
    offerOfBody? (CompFrame.offer o).body = some o := by
  obtain ⟨ha, hb, -, -⟩ := (o.wellFormed_iff).mp h
  have hgrade := o.ceiling.code_lt
  have hpay := o.payloadMax.code_lt
  have hcab := o.cab.code_lt
  have hlast := byteOf_toNat (n := 16 * o.ceiling.code + 4 * o.payloadMax.code + o.cab.code) (by omega)
  unfold offerOfBody?
  simp only [CompFrame.body, bytes16, EndPair.bytes, List.cons_append, List.nil_append,
    EndPair.ofBytes?_bytes (Triple.count_le ha), EndPair.ofBytes?_bytes (Triple.count_le hb), hlast]
  rw [(PayloadMax.ofCode?_eq (x := o.payloadMax)).mpr (by omega)]
  dsimp only
  rw [if_neg (by omega), word16_bytes16, show (16 * o.ceiling.code + 4 * o.payloadMax.code + o.cab.code) % 4 =
    o.cab.code by omega, show (16 * o.ceiling.code + 4 * o.payloadMax.code + o.cab.code) / 16 = o.ceiling.code by omega,
    OfferCab.ofCode_code, Grade.ofCode_code]
  exact if_pos h

theorem body_offerOfBody? {body : List Byte} {o : OfferFields} (h : offerOfBody? body = some o) :
    (CompFrame.offer o).body = body ∧ o.wellFormed = true := by
  unfold offerOfBody? at h
  split at h
  · rename_i e0 e1 a0 a1 b0 b1 st
    split at h
    · rename_i pa pb pm ha hb hp
      dsimp only at h
      split_ifs at h with hst hwf
      obtain rfl := Option.some.inj h
      refine ⟨?_, hwf⟩
      have hpay := PayloadMax.ofCode?_eq.mp hp
      have hlast : byteOf (16 * (st.toNat / 16) + 4 * (st.toNat / 4 % 4) + st.toNat % 4) = st := by
        rw [show 16 * (st.toNat / 16) + 4 * (st.toNat / 4 % 4) + st.toNat % 4 = st.toNat by omega, byteOf_of_toNat]
      simp only [CompFrame.body, bytes16_word16, (EndPair.bytes_ofBytes? ha).1, (EndPair.bytes_ofBytes? hb).1,
        List.cons_append, List.nil_append]
      rw [Grade.code_ofCode (by omega), OfferCab.code_ofCode (by omega), hpay, hlast]
    · cases h
  · cases h

theorem compFrameOfBody?_body {f : CompFrame} (ho : ∀ o, f = .offer o → o.wellFormed = true)
    (hc : ∀ e d p, f = .confirm e d p → 1 ≤ p ∧ p ≤ 16) : compFrameOfBody? f.cls f.body = some f := by
  cases f with
  | offer o =>
    have hbody : compFrameOfBody? 2 (CompFrame.offer o).body = (offerOfBody? (CompFrame.offer o).body).map .offer := rfl
    exact hbody.trans (by rw [offerOfBody?_body (ho o rfl)]; rfl)
  | confirm e d p =>
    obtain ⟨hlow, hhigh⟩ := hc e d p rfl
    have hbody : compFrameOfBody? 1 (CompFrame.confirm e d p).body =
        if 1 ≤ (byteOf p).toNat ∧ (byteOf p).toNat ≤ 16 then
          some (.confirm (word16 (e.extractLsb' 8 8) (e.extractLsb' 0 8)) (word32 (d.extractLsb' 24 8)
            (d.extractLsb' 16 8) (d.extractLsb' 8 8) (d.extractLsb' 0 8)) (byteOf p).toNat) else none := rfl
    refine hbody.trans ?_
    rw [byteOf_toNat (by omega), if_pos ⟨hlow, hhigh⟩, word16_bytes16, word32_bytes32]
  | presence e d =>
    have hbody : compFrameOfBody? 3 (CompFrame.presence e d).body =
        some (.presence (word16 (e.extractLsb' 8 8) (e.extractLsb' 0 8)) (word32 (d.extractLsb' 24 8)
            (d.extractLsb' 16 8) (d.extractLsb' 8 8) (d.extractLsb' 0 8))) := rfl
    rw [word16_bytes16, word32_bytes32] at hbody
    exact hbody

/-- What is read of a class and a body is written as them. -/
theorem body_compFrameOfBody? {cls : Nat} {body : List Byte} {f : CompFrame} (h : compFrameOfBody? cls body = some f) :
    f.cls = cls ∧ f.body = body ∧ (∀ o, f = .offer o → o.wellFormed = true) ∧
      (∀ e d p, f = .confirm e d p → 1 ≤ p ∧ p ≤ 16) := by
  unfold compFrameOfBody? at h
  split at h
  · rename_i e0 e1 d0 d1 d2 d3 p
    split_ifs at h with hp
    obtain rfl := Option.some.inj h
    refine ⟨rfl, ?_, fun o hf => CompFrame.noConfusion hf, fun e d q hf => ?_⟩
    · simp only [CompFrame.body, bytes16_word16, bytes32_word32, byteOf_of_toNat, List.cons_append, List.nil_append]
    · obtain ⟨-, -, hq⟩ := CompFrame.confirm.inj hf
      rw [← hq]
      exact hp
  · obtain ⟨o, ho, rfl⟩ := Option.map_eq_some_iff.mp h
    obtain ⟨hbody, hwf⟩ := body_offerOfBody? ho
    exact ⟨rfl, hbody, fun o' hf => CompFrame.offer.inj hf ▸ hwf, fun e d p hf => CompFrame.noConfusion hf⟩
  · obtain rfl := Option.some.inj h
    refine ⟨rfl, ?_, fun o hf => CompFrame.noConfusion hf, fun e d p hf => CompFrame.noConfusion hf⟩
    simp only [CompFrame.body, bytes16_word16, bytes32_word32, List.cons_append, List.nil_append]
  · cases h

/-! ## Cargo bodies (R130, R141, R175) -/

section Layout

variable {t0 t1 mode v0 v1 v2 v3 pos len : Byte} {payload : List Byte} {d : WireDest}

theorem cargoBodyOf?_reads (hd : wireDestOf? mode v0 v1 v2 v3 = some d)
    (hfits : payload.length = len.toNat ∧ 1 ≤ len.toNat ∧ len.toNat ≤ 128 ∧ 1 ≤ pos.toNat ∧ pos.toNat ≤ 16) :
    cargoBodyOf? (t0 :: t1 :: mode :: v0 :: v1 :: v2 :: v3 :: pos :: len :: payload) =
      some ⟨word16 t0 t1, d, pos.toNat, payload⟩ := by
  simp only [cargoBodyOf?, hd, hfits, and_self, if_true]

theorem cargoBodyOf?_malformed (h : wireDestOf? mode v0 v1 v2 v3 = none ∨
      ¬ (payload.length = len.toNat ∧ 1 ≤ len.toNat ∧ len.toNat ≤ 128 ∧ 1 ≤ pos.toNat ∧ pos.toNat ≤ 16)) :
    cargoBodyOf? (t0 :: t1 :: mode :: v0 :: v1 :: v2 :: v3 :: pos :: len :: payload) = none := by
  cases hd : wireDestOf? mode v0 v1 v2 v3 with
  | none => simp only [cargoBodyOf?, hd]
  | some d =>
    simp only [cargoBodyOf?, hd]
    exact if_neg (h.resolve_left (by rw [hd]; nofun))

theorem wireDestOf?_position (hm : mode.toNat = 0) : wireDestOf? mode v0 v1 v2 v3 =
    if 1 ≤ v3.toNat ∧ v3.toNat ≤ 16 then some (.position v3.toNat) else none := by
  simp only [wireDestOf?, hm]

theorem wireDestOf?_identity (hm : mode.toNat = 1) : wireDestOf? mode v0 v1 v2 v3 =
    if word32 v0 v1 v2 v3 ≠ 0 then some (.identity (word32 v0 v1 v2 v3)) else none := by
  simp only [wireDestOf?, hm]

theorem wireDestOf?_all (hm : mode.toNat = 2) : wireDestOf? mode v0 v1 v2 v3 = some .all := by
  simp only [wireDestOf?, hm]

theorem wireDestOf?_above (hm : 2 < mode.toNat) : wireDestOf? mode v0 v1 v2 v3 = none := by
  unfold wireDestOf?
  split <;> first | omega | rfl

end Layout

theorem cargoBodyOf?_short {body : List Byte} (h : body.length < 9) : cargoBodyOf? body = none := by
  unfold cargoBodyOf?
  split
  · simp at h; omega
  · rfl

/-- The destination that the wire carries is read as it was written. -/
theorem wireDestOf?_position_value {p : Nat} (hlow : 1 ≤ p) (hhigh : p ≤ 16) :
    wireDestOf? (byteOf WireMode.position.code) ((BitVec.ofNat 32 p).extractLsb' 24 8)
      ((BitVec.ofNat 32 p).extractLsb' 16 8) ((BitVec.ofNat 32 p).extractLsb' 8 8)
      ((BitVec.ofNat 32 p).extractLsb' 0 8) = some (.position p) := by
  have hv : ((BitVec.ofNat 32 p).extractLsb' 0 8).toNat = p := by
    rw [extract_toNat, BitVec.toNat_ofNat]
    omega
  rw [wireDestOf?_position rfl, hv, if_pos ⟨hlow, hhigh⟩]

theorem cargoBodyOf?_cargoBody {cur : Roster} {x : TxEntry} {mode : WireMode} {value : BitVec 32} {p : Option Nat}
    {d : WireDest} (hdest : wireDest cur x.dest = (mode, value, p))
    (hread : wireDestOf? (byteOf mode.code) (value.extractLsb' 24 8) (value.extractLsb' 16 8) (value.extractLsb' 8 8)
      (value.extractLsb' 0 8) = some d)
    (hpos : 1 ≤ cur.ownPos ∧ cur.ownPos ≤ 16) (hpay : 1 ≤ x.payload.length ∧ x.payload.length ≤ 128) :
    cargoBodyOf? (cargoBody cur x) = some ⟨cur.tag, d, cur.ownPos, x.payload⟩ := by
  have hposByte := byteOf_toNat (n := cur.ownPos) (by omega)
  have hlenByte := byteOf_toNat (n := x.payload.length) (by omega)
  have hbody : cargoBody cur x = cur.tag.extractLsb' 8 8 :: cur.tag.extractLsb' 0 8 :: byteOf mode.code ::
      value.extractLsb' 24 8 :: value.extractLsb' 16 8 :: value.extractLsb' 8 8 :: value.extractLsb' 0 8 ::
      byteOf cur.ownPos :: byteOf x.payload.length :: x.payload := by
    rw [cargoBody, hdest]
    rfl
  rw [hbody, cargoBodyOf?_reads hread (by rw [hposByte, hlenByte]; omega), word16_bytes16, hposByte]

/-- Settles O23: offers, confirms, presences and cargo bodies, each written and read. -/
theorem bodiesReadBack : Obligations.BodiesReadBack := by
  refine ⟨fun f ho hc => compFrameOfBody?_body ho hc, fun cls body f h => body_compFrameOfBody? h, fun o => ?_,
    fun cur x hlow hhigh hn hn' hp hp' hdest hid => ?_, fun t0 t1 mode v0 v1 v2 v3 pos len payload =>
    ⟨fun hfits hm hv hv' => ?_, fun hfits hm hv => ?_, fun hfits hm => ?_, fun hbad => ?_⟩,
    fun body h => cargoBodyOf?_short h⟩
  · rw [o.wellFormed_iff, Triple.reportable_iff, Triple.reportable_iff]
  · cases hx : x.dest with
    | position p b =>
      have hwire : wireDest cur x.dest = (.position, BitVec.ofNat 32 p, some p) := by rw [hx, wireDest]
      obtain ⟨hp1, hp2⟩ := hdest p b hx
      exact cargoBodyOf?_cargoBody hwire (wireDestOf?_position_value hp1 hp2) ⟨hlow, hhigh⟩ ⟨hp, hp'⟩
    | identity id =>
      have hwire : wireDest cur x.dest = (.identity, id, none) := by rw [hx, wireDest]
      refine cargoBodyOf?_cargoBody hwire ?_ ⟨hlow, hhigh⟩ ⟨hp, hp'⟩
      rw [wireDestOf?_identity rfl, word32_bytes32, if_pos (hid id hx)]
    | leading =>
      have hwire : wireDest cur x.dest = (.position, BitVec.ofNat 32 1, some 1) := by rw [hx]; rfl
      exact cargoBodyOf?_cargoBody hwire (wireDestOf?_position_value (Nat.le_refl 1) (by decide)) ⟨hlow, hhigh⟩ ⟨hp, hp'⟩
    | trailing =>
      have hwire : wireDest cur x.dest = (.position, BitVec.ofNat 32 cur.n, some cur.n) := by rw [hx, wireDest]
      exact cargoBodyOf?_cargoBody hwire (wireDestOf?_position_value hn hn') ⟨hlow, hhigh⟩ ⟨hp, hp'⟩
    | all =>
      have hwire : wireDest cur x.dest = (.all, 0, none) := by rw [hx, wireDest]
      exact cargoBodyOf?_cargoBody hwire (wireDestOf?_all rfl) ⟨hlow, hhigh⟩ ⟨hp, hp'⟩
  · exact cargoBodyOf?_reads ((wireDestOf?_position hm).trans (if_pos ⟨hv, hv'⟩)) hfits
  · exact cargoBodyOf?_reads ((wireDestOf?_identity hm).trans (if_pos hv)) hfits
  · exact cargoBodyOf?_reads (wireDestOf?_all hm) hfits
  · refine cargoBodyOf?_malformed ?_
    obtain h | ⟨hm, hv⟩ | ⟨hm, hv⟩ | hm := hbad
    · exact .inr h
    · exact .inl ((wireDestOf?_position hm).trans (if_neg (by omega)))
    · exact .inl ((wireDestOf?_identity hm).trans (if_neg fun hne => hne hv))
    · exact .inl (wireDestOf?_above hm)

end Sys2Proof.Machine
end

section
/-! What a whole frame of another station does, and the stop of the part (R36 to R41, R141 to R143). -/

namespace Sys2Proof.Machine

variable {s t : State} {f : Frame}

/-! ## The start bit -/

/-- Settles O26, by the state of the controller. -/
theorem startBitBeginsReception : Obligations.StartBitBeginsReception := by
  intro s hrx
  have hexec : exec .startBitSeen s = execStartBitSeen s := rfl
  have hwatches (hctrl : s.bus.ctrl = .listening ∨ s.bus.ctrl = .resting ∨ s.bus.ctrl = .silenced) :
      s.bus.watches = true := by
    unfold Bus.watches
    obtain h | h | h := hctrl <;> rw [h]
  refine ⟨fun hidle hctrl => ?idle, fun hidle hctrl => ?counting⟩
  case idle =>
    rw [hexec, execStartBitSeen, if_pos ⟨hwatches hctrl, hrx⟩, if_pos hidle]
    rfl
  case counting =>
    rw [hexec, execStartBitSeen, if_pos ⟨hwatches hctrl, hrx⟩, if_neg (by rw [hidle]; decide)]
    rfl

/-! ## A whole frame -/

/-- The state in which a whole frame is delivered (R26, R36). -/
def State.afterHearing (f : Frame) (s : State) : State := { s with bus := s.bus.afterFrame s.now f }

/-- A whole frame heard from its start bit ends the reception and is delivered. -/
theorem exec_wholeFrame (hrx : s.bus.rx = some .afterStart) (hf : f.Readable s.permitted) :
    exec (.frameReceived (f.wireBits.drop 1)) s = .next ((s.afterHearing f).deliver f) := by
  rw [execFrameReceived_wireBits hrx hf, Rx.idleAfter_wireBits hf]
  rfl

/-! ## Cargo -/

theorem deliver_cargo (hsource : f.source ≠ s.identity) (hcls : f.cls = 4 ∨ f.cls = 6) :
    s.deliver f = s.deliverCargo f := by
  rw [State.deliver, if_neg hsource, if_neg (by omega)]

theorem storeArrival_eq (x : RxEntry) (s : State) : s.storeArrival x = s.arrived x := by
  unfold State.storeArrival State.arrived
  split_ifs <;> rfl

theorem deliverCargo_malformed (h : cargoBodyOf? f.body = none) : s.deliverCargo f = s := by
  rw [State.deliverCargo, h]

theorem deliverCargo_foreign {b : CargoBody} (h : cargoBodyOf? f.body = some b) (htag : s.rosterOfTag b.tag = none) :
    s.deliverCargo f = s.count .foreign := by
  simp only [State.deliverCargo, h, htag]

theorem deliverCargo_current {b : CargoBody} {cur : Roster} (h : cargoBodyOf? f.body = some b)
    (htag : s.rosterOfTag b.tag = some (cur, false)) :
    s.deliverCargo f =
      if acceptCurrent s.identity cur b.dest then
        s.arrived { source := f.source, sourcePos := b.sourcePos, mode := b.dest.mode, renamed := false
                    grade := f.grade, payload := b.payload }
      else s := by
  simp only [State.deliverCargo, h, htag, storeArrival_eq, Bool.false_and, Bool.false_eq_true, if_false]

theorem deliverCargo_previous {b : CargoBody} {prev : Roster} (h : cargoBodyOf? f.body = some b)
    (htag : s.rosterOfTag b.tag = some (prev, true)) :
    s.deliverCargo f =
      if acceptPrevious s.identity prev b.dest then
        s.arrived { source := f.source, sourcePos := b.sourcePos, mode := b.dest.mode
                    renamed := b.dest.isPosition, grade := f.grade, payload := b.payload }
      else s := by
  simp only [State.deliverCargo, h, htag, storeArrival_eq, Bool.true_and, if_true]

theorem rosterOfTag_none {tag : Tag} (h : s.comp.current = none) : s.rosterOfTag tag = none := by
  rw [State.rosterOfTag, h]

theorem rosterOfTag_current {tag : Tag} {cur : Roster} (h : s.comp.current = some cur) (htag : tag = cur.tag) :
    s.rosterOfTag tag = some (cur, false) := by
  simp only [State.rosterOfTag, h, htag, if_true]

theorem rosterOfTag_previous {tag : Tag} {cur prev : Roster} (h : s.comp.current = some cur)
    (hprev : s.comp.previous = some prev) (hne : tag ≠ cur.tag) (htag : tag = prev.tag) :
    s.rosterOfTag tag = some (prev, true) := by
  rw [State.rosterOfTag, h]
  dsimp only
  rw [if_neg hne, hprev]
  exact if_pos htag

theorem rosterOfTag_neither {tag : Tag} {cur : Roster} (h : s.comp.current = some cur) (hne : tag ≠ cur.tag)
    (hprev : ∀ prev, s.comp.previous = some prev → tag ≠ prev.tag) : s.rosterOfTag tag = none := by
  rw [State.rosterOfTag, h]
  dsimp only
  rw [if_neg hne]
  cases hp : s.comp.previous with
  | none => rfl
  | some prev => exact if_neg (hprev prev hp)

theorem acceptCurrent_iff {own : Identity} {cur : Roster} {d : WireDest} :
    acceptCurrent own cur d = true ↔ d = .all ∨ d = .identity own ∨ d = .position cur.ownPos := by
  cases d <;> simp [acceptCurrent]

/-- Settles O27, by the roster under whose tag the frame comes. -/
theorem frameReceivedStoresCargo : Obligations.FrameReceivedStoresCargo := by
  intro s f hrx _ hf hcls hsource event heard foreign
  have hexec : exec event s = .next ((s.afterHearing f).deliverCargo f) := by
    rw [exec_wholeFrame hrx hf, deliver_cargo (s := s.afterHearing f) hsource hcls]
  have hforeign {b : CargoBody} (hb : cargoBodyOf? f.body = some b) (h : (s.afterHearing f).rosterOfTag b.tag = none) :
      exec event s = .next foreign := by
    rw [hexec, deliverCargo_foreign hb h]
    rfl
  refine ⟨fun hnone => ?malformed, fun b hb => ⟨fun hcur => ?noRoster, fun cur hcur =>
    ⟨fun htag => ⟨fun hdest => ?accepted, fun hall hid hpos => ?passed⟩, fun prev hprev hne htag =>
      ⟨fun hdest => ?accepted', fun p hp hat => ?renamed, fun p hp hat => ?other, fun id hid hother => ?stranger⟩,
      fun hne hprev => ?neither⟩⟩⟩
  case malformed => rw [hexec, deliverCargo_malformed hnone]; rfl
  case noRoster => exact hforeign hb (rosterOfTag_none hcur)
  case neither => exact hforeign hb (rosterOfTag_neither hcur hne hprev)
  case accepted =>
    rw [hexec, deliverCargo_current hb (rosterOfTag_current (s := s.afterHearing f) hcur htag)]
    exact congrArg _ (if_pos (acceptCurrent_iff.mpr hdest))
  case passed =>
    rw [hexec, deliverCargo_current hb (rosterOfTag_current (s := s.afterHearing f) hcur htag)]
    exact congrArg _ (if_neg fun h => (acceptCurrent_iff.mp h).elim hall fun h => h.elim hid hpos)
  all_goals rw [hexec, deliverCargo_previous hb (rosterOfTag_previous (s := s.afterHearing f) hcur hprev ‹_› htag)]
  case accepted' =>
    obtain h | h := hdest <;> rw [h]
    · rfl
    · exact congrArg _ (if_pos (decide_eq_true rfl))
  case renamed =>
    rw [hp]
    exact congrArg _ (if_pos (decide_eq_true hat))
  case other =>
    rw [hp]
    exact congrArg _ (if_neg fun h => hat (of_decide_eq_true h))
  case stranger =>
    rw [hid]
    exact congrArg _ (if_neg fun h => hother (of_decide_eq_true h))

/-! ## Composition frames -/

theorem noteHeard_eq (src : Identity) (s : State) :
    s.noteHeard src = { s with comp := s.comp.noted src s.now } := rfl

theorem deliverComp_discarded
    (h : s.comp.state = .idle ∨ s.comp.state = .halted ∨ f.source = 0 ∨ compFrameOfBody? f.cls f.body = none) :
    s.deliverComp f = s := by
  unfold State.deliverComp
  split
  · rfl
  · next hlive =>
    obtain h | h | h | h := h
    · exact absurd (.inl h) hlive
    · exact absurd (.inr (.inl h)) hlive
    · exact absurd (.inr (.inr h)) hlive
    · rw [h]

/-- Settles O28, by the kind of the frame. -/
theorem frameReceivedDeliversComposition : Obligations.FrameReceivedDeliversComposition := by
  intro s f hrx _ hf hcls hsource event heard noted
  have hexec : exec event s = .next ((s.afterHearing f).deliverComp f) := by
    rw [exec_wholeFrame hrx hf, deliver_composition (s := s.afterHearing f) hsource hcls]
  refine ⟨fun hdiscard => ?discarded, fun hidle hhalted hzero => ?judged⟩
  case discarded =>
    rw [hexec, deliverComp_discarded (s := s.afterHearing f) hdiscard]
    rfl
  case judged =>
    have hlive : ¬ ((s.afterHearing f).comp.state = .idle ∨ (s.afterHearing f).comp.state = .halted ∨ f.source = 0) :=
      fun h => h.elim hidle fun h => h.elim hhalted hzero
    refine ⟨fun o ho => ?_, fun e d p ho => ?_, fun e d ho => ?_⟩ <;>
      rw [hexec, State.deliverComp, if_neg hlive, ho] <;> rfl

/-! ## The flush and the stop (R41, R140, R171) -/

/-- The removal of some entries, each with the outcome of a flush. -/
def State.flushed (entries : List TxEntry) (s : State) : State :=
  entries.foldl (fun t x => t.removeEntry x.ticket .flushed none) s

/-- A removal touches the transmit queue, the outcomes and the flags alone. -/
theorem removeEntry_shape (ticket : Nat) (kind : OutcomeKind) (p : Option Nat) (s : State) :
    ∃ outcomes loss flags, s.removeEntry ticket kind p = { s with
      cargo := { s.cargo with
        queue := s.cargo.queue.filter fun x => x.ticket ≠ ticket, outcomes := outcomes, outcomeLoss := loss }
      port := { s.port with flags := flags } } := by
  by_cases h : s.cargo.outcomes.length < 32
  · exact ⟨_, _, _, removeEntry_room h⟩
  · exact ⟨_, _, _, removeEntry_full (not_lt.mp h)⟩

theorem flushed_shape (entries : List TxEntry) (s : State) :
    ∃ outcomes loss flags, s.flushed entries = { s with
      cargo := { s.cargo with
        queue := s.cargo.queue.filter fun x => x.ticket ∉ entries.map TxEntry.ticket
        outcomes := outcomes, outcomeLoss := loss }
      port := { s.port with flags := flags } } := by
  induction entries generalizing s with
  | nil => exact ⟨s.cargo.outcomes, s.cargo.outcomeLoss, s.port.flags, by simp [State.flushed]⟩
  | cons x xs ih =>
    obtain ⟨o, l, g, hone⟩ := removeEntry_shape x.ticket .flushed none s
    obtain ⟨o', l', g', hrest⟩ := ih (s.removeEntry x.ticket .flushed none)
    refine ⟨o', l', g', hrest.trans ?_⟩
    rw [hone]
    simp only [List.filter_filter, List.map_cons, List.mem_cons, not_or, ne_eq, Bool.decide_and, Bool.and_comm]

theorem flushed_room (entries : List TxEntry) (h : s.cargo.outcomes.length + entries.length ≤ 32) :
    (s.flushed entries).cargo.outcomes =
        s.cargo.outcomes ++ entries.map (fun x => ⟨x.ticket, .flushed, none⟩) ∧
      (s.flushed entries).cargo.outcomeLoss = s.cargo.outcomeLoss := by
  induction entries generalizing s with
  | nil => exact ⟨(List.append_nil _).symm, rfl⟩
  | cons x xs ih =>
    rw [List.length_cons] at h
    have hone := removeEntry_room (s := s) (ticket := x.ticket) (kind := .flushed) (p := none) (by omega)
    obtain ⟨ho, hl⟩ := ih (s := s.removeEntry x.ticket .flushed none) (by
      rw [hone]
      simp only [List.length_append, List.length_singleton]
      omega)
    refine ⟨Eq.trans ho ?_, Eq.trans hl ?_⟩ <;> rw [hone]
    simp only [List.append_assoc, List.map_cons, List.singleton_append]

theorem flush_eq (s : State) : s.flush = s.flushed s.cargo.queue := rfl

theorem flush_shape (s : State) :
    ∃ outcomes loss flags, s.flush = { s with
      cargo := { s.cargo with queue := [], outcomes := outcomes, outcomeLoss := loss }
      port := { s.port with flags := flags } } := by
  obtain ⟨o, l, g, h⟩ := flushed_shape s.cargo.queue s
  refine ⟨o, l, g, h.trans ?_⟩
  rw [List.filter_eq_nil_iff.mpr fun x hx => by simpa using ⟨x, hx, rfl⟩]

/-- The stop of the part. -/
theorem stop_partStops (s : State) : PartStops s s.stop := by
  have hstop : s.stop = State.flush (((s.setBus { s.bus with
      ctrl := .silenced, slot := none, restDue := none, selected := none }).setPort
        { s.port with part := .silenced }).notify .silenced).halt := rfl
  have hflag : s.stop.flagSet .silenced = true :=
    flagSet_of_gains (flush_cargoStep _).port (flagSet_notify .silenced _)
  obtain ⟨o, l, g, hshape⟩ := flush_shape (((s.setBus { s.bus with
      ctrl := .silenced, slot := none, restDue := none, selected := none }).setPort
        { s.port with part := .silenced }).notify .silenced).halt
  rw [← hstop] at hshape
  refine ⟨?_, ?_, hflag, ?_, ?_, fun _ hroom => ?_, ?_⟩
  case refine_5 =>
    rw [hstop, flush_eq]
    exact flushed_room _ hroom
  all_goals
    rw [hshape]
    rfl

/-! ## A frame of the own identity -/

theorem recent_iff {x : Option Ticks} : s.recent x = true ↔ ∃ c, x = some c ∧ s.now ≤ c + 40000000 := by
  unfold State.recent
  cases x with
  | none => simp
  | some c =>
    rw [decide_eq_true_iff]
    exact ⟨fun h => ⟨c, rfl, h⟩, fun ⟨_, hc, h⟩ => Option.some.inj hc ▸ h⟩

theorem recent_false {x : Option Ticks} (h : ∀ c, x = some c → c + 40000000 < s.now) : s.recent x = false := by
  rw [Bool.eq_false_iff]
  intro hrecent
  obtain ⟨c, hc, hle⟩ := recent_iff.mp hrecent
  exact absurd (h c hc) (not_lt.mpr hle)

/-- Settles O29, by the judgement of the clash. -/
theorem frameReceivedOwnIdentityIsClash : Obligations.FrameReceivedOwnIdentityIsClash := by
  intro s f hrx hf hsource
  have hexec : exec (.frameReceived (f.wireBits.drop 1)) s = .next (s.afterHearing f).clash := by
    rw [exec_wholeFrame hrx hf, State.deliver]
    exact congrArg _ (if_pos hsource)
  refine ⟨fun hctrl => ?silenced, fun hctrl => ?heard⟩
  case silenced =>
    have hstays : (s.afterHearing f).bus.ctrl = .silenced := by
      simp only [State.afterHearing, Bus.afterFrame, hctrl, reduceCtorEq, if_false]
    rw [hexec, State.clash, if_pos hstays]
    rfl
  case heard =>
    have hgoes : (s.afterHearing f).bus.ctrl ≠ .silenced := by
      obtain h | h := hctrl <;> simp [State.afterHearing, Bus.afterFrame, h]
    refine ⟨fun hfar htakes => ?first, fun c hc hnear => ?second⟩
    case first =>
      refine ⟨_, hexec, ?_⟩
      have hrecent : (s.afterHearing f).recent (s.afterHearing f).bus.firstClash = false := recent_false hfar
      rw [State.clash, if_neg hgoes, hrecent, if_neg Bool.false_ne_true]
      exact triggers_of_takes (r := .clash) (s := State.notify .clash ((s.afterHearing f).setBus
        { (s.afterHearing f).bus with firstClash := some s.now })) htakes (by decide)
    case second =>
      refine ⟨_, hexec, ?_⟩
      have hrecent : (s.afterHearing f).recent (s.afterHearing f).bus.firstClash = true :=
        recent_iff.mpr ⟨c, hc, hnear⟩
      rw [State.clash, if_neg hgoes, hrecent, if_pos rfl]
      exact stop_partStops _

end Sys2Proof.Machine
end

section
/-! The errors of a reception (R28 to R30, R37, R38). -/

namespace Sys2Proof.Machine

variable {s t : State} {r : Rx} {permitted : BitVec 4} {b : Bool}

/-! ## The bit that ends a reception -/

theorem Rx.feed_error {e : RxError} (more : List Bool) (h : r.step permitted b = .error e) :
    r.feed permitted (b :: more) = .error e := by
  rw [Rx.feed, h]

theorem Rx.feed_skip (more : List Bool) (h : r.step permitted b = .skip) : r.feed permitted (b :: more) = .skip := by
  rw [Rx.feed, h]

theorem Rx.idleAfter_error {e : RxError} (more : List Bool) (h : r.step permitted b = .error e) :
    r.idleAfter permitted (b :: more) = (r.hear b).untilIdle := by
  rw [Rx.idleAfter, h]

theorem Rx.idleAfter_skip (more : List Bool) (h : r.step permitted b = .skip) :
    r.idleAfter permitted (b :: more) = (r.hear b).untilIdle := by
  rw [Rx.idleAfter, h]

/-- The bus after bit `b` has ended a reception, with some counters. -/
def Bus.receptionEnded (now : Ticks) (r : Rx) (b : Bool) (counters : Counters) (bus : Bus) : Bus :=
  { bus with
    ctrl := if bus.ctrl = .receiving then .listening else bus.ctrl, rx := none
    idleDue := some (now + (r.hear b).untilIdle), counters := counters }

theorem exec_receptionError (more : List Bool) {e : RxError} (hrx : s.bus.rx = some r)
    (h : r.step s.permitted b = .error e) :
    exec (.frameReceived (b :: more)) s = .next { s with
      bus := s.bus.receptionEnded s.now r b (s.bus.counters.raise e.counter)
      grade := { s.grade with errors := min 255 (s.grade.errors + 1) } } := by
  have hexec : exec (.frameReceived (b :: more)) s = execFrameReceived (b :: more) s := rfl
  rw [hexec, execFrameReceived, hrx]
  dsimp only
  rw [State.receive, Rx.feed_error more h, Rx.idleAfter_error more h]
  rfl

theorem exec_receptionSkip (more : List Bool) (hrx : s.bus.rx = some r) (h : r.step s.permitted b = .skip) :
    exec (.frameReceived (b :: more)) s = .next { s with
      bus := s.bus.receptionEnded s.now r b (s.bus.counters.raise .gradeSkip) } := by
  have hexec : exec (.frameReceived (b :: more)) s = execFrameReceived (b :: more) s := rfl
  rw [hexec, execFrameReceived, hrx]
  dsimp only
  rw [State.receive, Rx.feed_skip more h, Rx.idleAfter_skip more h]
  rfl

/-! ## Each error at its bit -/

/-- The receiver with another content bit taken. -/
def Rx.taking (r : Rx) (b : Bool) : Rx :=
  { r.hear b with last := b, run := if b = r.last then r.run + 1 else 1, taken := b :: r.taken }

theorem Rx.step_content (hwaiting : r.waiting = false) (hrun : r.run ≠ 5) (hopen : r.contentComplete = false) :
    r.step permitted b = (r.taking b).judge permitted :=
  Rx.judgeBit_content (r := r.hear b) b hwaiting hrun fun h => Bool.false_ne_true (hopen.symm.trans h)

theorem Rx.taking_length : (r.taking b).taken.length = (b :: r.taken).reverse.length := by
  rw [List.length_reverse]
  rfl

theorem Rx.judge_class (hlength : (b :: r.taken).reverse.length = 3)
    (hcls : numOf (b :: r.taken).reverse = 0 ∨ numOf (b :: r.taken).reverse = 5 ∨
      numOf (b :: r.taken).reverse = 7) :
    (r.taking b).judge permitted = .error .format := by
  have hfield : (r.taking b).field 0 3 = numOf (b :: r.taken).reverse :=
    congrArg numOf (List.take_of_length_le hlength.le)
  rw [Rx.judge, if_pos (Rx.taking_length.trans hlength), hfield,
    if_pos (by simpa only [Bool.or_eq_true, decide_eq_true_eq, or_assoc] using hcls)]

theorem Rx.judge_grade (hlength : (b :: r.taken).reverse.length = 37)
    (hcls : numOf ((b :: r.taken).reverse.take 3) ≤ 3) (hgrade : numOf ((b :: r.taken).reverse.drop 35) ≠ 0) :
    (r.taking b).judge permitted = .error .format := by
  have hfield : (r.taking b).field 35 2 = numOf ((b :: r.taken).reverse.drop 35) :=
    congrArg numOf (List.take_of_length_le (l := (b :: r.taken).reverse.drop 35) (by rw [List.length_drop, hlength]))
  have hfield' : (r.taking b).field 0 3 = numOf ((b :: r.taken).reverse.take 3) := rfl
  have hlen : (r.taking b).taken.length = 37 := Rx.taking_length.trans hlength
  rw [Rx.judge, if_neg (by omega), if_pos hlen, hfield, hfield',
    if_pos (by simpa only [Bool.and_eq_true, decide_eq_true_eq] using ⟨hcls, hgrade⟩)]

theorem Rx.judge_length (hlength : (b :: r.taken).reverse.length = 45)
    (hlong : 140 < numOf (((b :: r.taken).reverse.drop 37).take 8)) :
    (r.taking b).judge permitted = .error .format := by
  have hlen : (r.taking b).taken.length = 45 := Rx.taking_length.trans hlength
  rw [Rx.judge, if_neg (by omega), if_neg (by omega), if_pos hlen]
  exact if_pos hlong

theorem Rx.judge_skip (hlength : (b :: r.taken).reverse.length = 45)
    (hshort : numOf (((b :: r.taken).reverse.drop 37).take 8) ≤ 140)
    (hpermit : permits permitted (Grade.ofCode (numOf (((b :: r.taken).reverse.drop 35).take 2))) = false) :
    (r.taking b).judge permitted = .skip := by
  have hlen : (r.taking b).taken.length = 45 := Rx.taking_length.trans hlength
  rw [Rx.judge, if_neg (by omega), if_neg (by omega), if_pos hlen]
  exact (if_neg (not_lt.mpr hshort)).trans (if_neg (by rw [Rx.field, Rx.taking, hpermit]; decide))

theorem Rx.judge_crc (hlong : 61 ≤ (b :: r.taken).reverse.length)
    (hlength : (b :: r.taken).reverse.length = 61 + 8 * numOf (((b :: r.taken).reverse.drop 37).take 8))
    (hrun : r.run ≠ 4 ∨ b ≠ r.last)
    (hcrc : (crc16 ((b :: r.taken).reverse.take (45 + 8 * numOf (((b :: r.taken).reverse.drop 37).take 8)))
        0xFFFF#16).toNat ≠
      numOf ((b :: r.taken).reverse.drop (45 + 8 * numOf (((b :: r.taken).reverse.drop 37).take 8)))) :
    (r.taking b).judge permitted = .error .crc := by
  have hlen : (r.taking b).taken.length = (b :: r.taken).reverse.length := Rx.taking_length
  have hbody : (r.taking b).bodyLength = numOf (((b :: r.taken).reverse.drop 37).take 8) := rfl
  have hdone : (r.taking b).contentComplete = true := by
    simp only [Rx.contentComplete, hbody, Bool.and_eq_true, decide_eq_true_eq]
    omega
  have hnot : (r.taking b).run ≠ 5 := by
    simp only [Rx.taking]
    split
    · next h => exact fun h5 => hrun.elim (fun h4 => h4 (by omega)) fun hne => hne h
    · decide
  have hfails : (r.taking b).crcMatches = false := decide_eq_false hcrc
  rw [Rx.judge, if_neg (by omega), if_neg (by omega), if_neg (by omega), if_pos hdone, if_neg hnot, Rx.judgeCrc,
    hfails, if_neg Bool.false_ne_true]

theorem Rx.step_crcStuff (hwaiting : r.waiting = false) (hrun : r.run = 5) (hb : b = !r.last)
    (hdone : r.contentComplete = true) (hcrc : r.crcMatches = false) : r.step permitted b = .error .crc := by
  rw [hb, Rx.step]
  refine (Rx.judgeBit_stuffBit (r := r.hear (!r.last)) hwaiting hrun).trans ?_
  exact (if_pos hdone).trans (if_neg (fun h => Bool.false_ne_true (hcrc.symm.trans h)))

theorem Rx.step_sixth (hwaiting : r.waiting = false) (hrun : r.run = 5) (hlast : r.last = false) (hb : b = false) :
    r.step permitted b = .error .stuff := by
  simp [Rx.step, Rx.judgeBit, Rx.hear, hwaiting, hrun, hlast, hb]

theorem Rx.step_waiting_dominant (hwaiting : r.waiting = true) (hb : b = false) :
    r.step permitted b = .error .stuff := by
  simp [Rx.step, Rx.judgeBit, Rx.hear, hwaiting, hb]

theorem Rx.step_endField_dominant (hwaiting : r.waiting = false) (hrun : r.run ≠ 5) (hdone : r.contentComplete = true)
    (hb : b = false) : r.step permitted b = .error .format := by
  have hdone' : (r.hear b).contentComplete = true := hdone
  have hrun' : (r.hear b).run ≠ 5 := hrun
  have hwaiting' : (r.hear b).waiting = false := hwaiting
  rw [Rx.step, Rx.judgeBit, hwaiting', if_neg Bool.false_ne_true, if_neg hrun', if_pos hdone', hb]
  rfl

/-! ## A truncated frame -/

/-- A receiver that has read six recessive bits goes on waiting while the bus stays recessive. -/
theorem Rx.feed_waiting (n : Nat) (hwaiting : r.waiting = true) :
    ∃ x, r.feed permitted (List.replicate n true) = .more x := by
  induction n generalizing r with
  | zero => exact ⟨r, rfl⟩
  | succ n ih =>
    have hstep : r.step permitted true = .more (r.hear true) := by simp [Rx.step, Rx.judgeBit, Rx.hear, hwaiting]
    obtain ⟨x, hx⟩ := ih (r := r.hear true) hwaiting
    exact ⟨x, (Rx.feed_cons hstep).trans hx⟩

theorem Rx.atIdle_waiting (hwaiting : r.waiting = true) : r.atIdle permitted = .error .truncated := by
  obtain ⟨x, hx⟩ := Rx.feed_waiting (permitted := permitted) 11 hwaiting
  rw [Rx.atIdle, hx]

/-- With an empty slot and a closed gate nothing is selected at an idle. -/
theorem select_closed (hslot : s.bus.slot = none) (hgate : s.gateOpen = false) : s.select = (s, none) := by
  simp [State.select, hslot, State.headCandidate, hgate]

theorem atIdle_of_select_none {u : State} (h : s.select = (u, none)) :
    s.atIdle = u.setBus { u.bus with selected := none } := by
  simp only [State.atIdle, h]

/-- The bus is idle (R26). -/
def State.becomeIdle (s : State) : State := s.setBus { s.bus with idle := true, idleDue := none }

theorem exec_busIdle (hwatches : s.bus.watches = true) (hdue : s.bus.idle = true ∨ s.bus.idleDue.isSome = true) :
    exec .busIdle s = .next (s.advanceToDue s.bus.idleDue).idleReception.becomeIdle.atIdle := by
  have hexec : exec .busIdle s = execBusIdle s := rfl
  rw [hexec, execBusIdle, if_pos ⟨hwatches, hdue⟩]
  rfl

/-- Settles O30, error by error. -/
theorem receiveErrorsAreCounted : Obligations.ReceiveErrorsAreCounted := by
  refine ⟨fun s r b more hrx => ?errors, fun s r d hctrl hrx hwaiting hdue hslot hgate => ?truncated⟩
  case errors =>
    intro bits length covered event ended failed content
    have hstep (hc : content) : r.step s.permitted b = (r.taking b).judge s.permitted :=
      Rx.step_content hc.1 hc.2.1 hc.2.2
    refine ⟨fun hc h3 hcls => ?_, fun hc h37 hcls hgrade => ?_, fun hc h45 hlong => ?_,
      fun hc h45 hshort hpermit => ?_, fun hc hlong hlength hrun hcrc => ?_,
      fun hw hrun hb hdone hcrc => ?_, fun hw hrun hlast hb => ?_, fun hw hb => ?_, fun hw hrun hdone hb => ?_⟩
    · exact exec_receptionError more hrx ((hstep hc).trans (Rx.judge_class h3 hcls))
    · exact exec_receptionError more hrx ((hstep hc).trans (Rx.judge_grade h37 hcls hgrade))
    · exact exec_receptionError more hrx ((hstep hc).trans (Rx.judge_length h45 hlong))
    · exact exec_receptionSkip more hrx ((hstep hc).trans (Rx.judge_skip h45 hshort hpermit))
    · exact exec_receptionError more hrx ((hstep hc).trans (Rx.judge_crc hlong hlength hrun hcrc))
    · exact exec_receptionError more hrx (Rx.step_crcStuff hw hrun hb hdone hcrc)
    · exact exec_receptionError more hrx (Rx.step_sixth hw hrun hlast hb)
    · exact exec_receptionError more hrx (Rx.step_waiting_dominant hw hb)
    · exact exec_receptionError more hrx (Rx.step_endField_dominant hw hrun hdone hb)
  case truncated =>
    have hended : (s.advanceToDue s.bus.idleDue).idleReception =
        ((s.advanceTo d).endReception.count .truncation).reportError := by
      rw [hdue, State.advanceToDue, State.idleReception, State.advanceTo_bus, hrx]
      dsimp only
      rw [Rx.atIdle_waiting hwaiting]
      rfl
    have hnone : (s.advanceToDue s.bus.idleDue).idleReception.becomeIdle.select =
        ((s.advanceToDue s.bus.idleDue).idleReception.becomeIdle, none) := by
      rw [hended]
      exact select_closed hslot hgate
    rw [exec_busIdle (by rw [Bus.watches, hctrl]) (.inr (by rw [hdue]; rfl)), atIdle_of_select_none hnone, hended]
    simp only [State.endReception, State.advanceTo_bus, hctrl, if_true]
    rfl

end Sys2Proof.Machine
end

section
/-! What the controller sends on an idle bus (R26, R31, R32, R129, R130). -/

namespace Sys2Proof.Machine

variable {s t : State} {f : CompFrame} {x y : TxEntry} {before after : List TxEntry} {cur : Roster}

/-! ## Idle -/

theorem advanceToDue_eq (due : Option Ticks) (s : State) :
    s.advanceToDue due = { s with now := max s.now (due.getD 0) } := by
  cases due with
  | none => exact congrArg (fun n => { s with now := n }) (Nat.max_zero s.now).symm
  | some d => rfl

theorem idleReception_none (h : s.bus.rx = none) : s.idleReception = s := by rw [State.idleReception, h]

/-- The state in which a listening controller selects its frame at an idle (R26, R31). -/
def State.idling (s : State) : State :=
  { s with
    now := max s.now (s.bus.idleDue.getD 0)
    bus := { s.bus with idle := true, idleDue := none } }

theorem exec_busIdle_listening (hctrl : s.bus.ctrl = .listening) (hrx : s.bus.rx = none)
    (hdue : s.bus.idle = true ∨ s.bus.idleDue.isSome = true) :
    exec .busIdle s = .next s.idling.atIdle := by
  rw [exec_busIdle (by rw [Bus.watches, hctrl]) hdue, advanceToDue_eq, idleReception_none (by exact hrx)]
  rfl

theorem inIntermission_false (h : ∀ t, s.bus.intermissionEnd = some t → t ≤ s.now) : s.inIntermission = false := by
  unfold State.inIntermission
  cases hend : s.bus.intermissionEnd with
  | none => rfl
  | some t => exact decide_eq_false (not_lt.mpr (h t hend))

theorem atIdle_congr (h : s.select = t.select) : s.atIdle = t.atIdle := by rw [State.atIdle, State.atIdle, h]

/-- A selected frame that nothing holds back is sent at once (R31). -/
theorem atIdle_sends {u : State} {sel : Selection} (h : s.select = (u, some sel)) (hctrl : u.bus.ctrl = .listening)
    (hpassed : u.inIntermission = false) : s.atIdle = u.startFrame sel := by
  rw [State.atIdle, h]
  exact if_pos ⟨hctrl, hpassed⟩

/-! ## Composition frames -/

theorem atIdle_comp (hslot : s.bus.slot = some f) (hctrl : s.bus.ctrl = .listening)
    (hpassed : s.inIntermission = false) :
    s.atIdle = { s with bus := { s.bus with
      ctrl := .transmitting, idle := false, idleDue := none, intermissionEnd := none
      selected := none, slot := none
      tx := some ⟨{ cls := f.cls, source := s.identity, grade := .g1, body := f.body }, .comp f⟩ } } := by
  have hselect : s.select = (s, some .comp) := by rw [State.select, hslot]
  rw [atIdle_sends hselect hctrl hpassed, State.startFrame, hslot]
  rfl

/-- Settles O24, by the frame that the idle bus selects. -/
theorem idleBusSendsCompositionFrame : Obligations.IdleBusSendsCompositionFrame := by
  refine ⟨fun s f hctrl hrx hslot hdue hpassed => ?idle, fun s t hend => ⟨fun f hidle hctrl hslot => ?passed,
    fun hidle => ?waits⟩⟩
  case idle =>
    rw [exec_busIdle_listening hctrl hrx hdue,
      atIdle_comp (s := s.idling) hslot hctrl (inIntermission_false hpassed)]
    rfl
  all_goals
    have hexec : exec .intermissionPassed s = execIntermissionPassed s := rfl
    rw [hexec, execIntermissionPassed, hend]
    dsimp only
  case passed =>
    rw [if_pos ⟨by exact hidle, by exact hctrl⟩,
      atIdle_comp (f := f) (by exact hslot) (by exact hctrl) (inIntermission_false fun _ h => absurd h (by simp))]
    rfl
  case waits =>
    rw [if_neg (fun h => Bool.false_ne_true (hidle.symm.trans h.1))]
    rfl

/-! ## One entry of the transmit queue -/

/-- With no ticket twice, what is done to an entry's ticket is done to that entry alone. -/
theorem ticket_ne_of_nodup {l : List TxEntry} (hl : l ⊆ before ++ after)
    (hnodup : ((before ++ x :: after).map TxEntry.ticket).Nodup) (hy : y ∈ l) : y.ticket ≠ x.ticket := by
  rw [List.map_append, List.map_cons, List.nodup_middle, List.nodup_cons, ← List.map_append] at hnodup
  exact fun h => hnodup.1 (List.mem_map.mpr ⟨y, hl hy, h⟩)

theorem mapEntry_split (f : TxEntry → TxEntry) (hq : s.cargo.queue = before ++ x :: after)
    (hnodup : (s.cargo.queue.map TxEntry.ticket).Nodup) :
    s.mapEntry x.ticket f = { s with cargo := { s.cargo with queue := before ++ f x :: after } } := by
  rw [hq] at hnodup
  have hkeep {l : List TxEntry} (hl : l ⊆ before ++ after) :
      l.map (fun y => if y.ticket = x.ticket then f y else y) = l :=
    (List.map_congr_left fun y hy => if_neg (ticket_ne_of_nodup hl hnodup hy)).trans (List.map_id l)
  rw [State.mapEntry, hq, List.map_append, List.map_cons, if_pos rfl, hkeep (List.subset_append_left _ _),
    hkeep (List.subset_append_right _ _)]
  rfl

theorem filter_split (hq : s.cargo.queue = before ++ x :: after)
    (hnodup : (s.cargo.queue.map TxEntry.ticket).Nodup) :
    s.cargo.queue.filter (fun y => y.ticket ≠ x.ticket) = before ++ after := by
  rw [hq] at hnodup
  have hkeep {l : List TxEntry} (hl : l ⊆ before ++ after) : l.filter (fun y => y.ticket ≠ x.ticket) = l :=
    List.filter_eq_self.mpr fun y hy => decide_eq_true (ticket_ne_of_nodup hl hnodup hy)
  rw [hq, List.filter_append, List.filter_cons_of_neg (by simp), hkeep (List.subset_append_left _ _),
    hkeep (List.subset_append_right _ _)]

theorem removeEntry_split {kind : OutcomeKind} {p : Option Nat} (hq : s.cargo.queue = before ++ x :: after)
    (hnodup : (s.cargo.queue.map TxEntry.ticket).Nodup) (hroom : s.cargo.outcomes.length < 32) :
    s.removeEntry x.ticket kind p = { s with
      cargo := { s.cargo with
        queue := before ++ after, outcomes := s.cargo.outcomes ++ [⟨x.ticket, kind, p⟩] }
      port := { s.port with flags := s.port.flags ||| 0x0040#15 } } := by
  rw [removeEntry_room hroom, filter_split hq hnodup]

theorem entryOf_split (hq : s.cargo.queue = before ++ x :: after)
    (hnodup : (s.cargo.queue.map TxEntry.ticket).Nodup) : s.entryOf x.ticket = some x :=
  entryOf_eq (by rw [hq]; exact List.mem_append_right _ List.mem_cons_self) rfl hnodup

/-! ## The head candidate (R129) -/

theorem namesOwn_iff {d : Dest} :
    namesOwn cur d = true ↔ (d = .leading ∧ cur.ownPos = 1) ∨ (d = .trailing ∧ cur.ownPos = cur.n) := by
  cases d <;> simp [namesOwn]

theorem headCandidate_eq (hgate : s.gateOpen = true) (hcur : s.comp.current = some cur) :
    s.headCandidate = s.chooseFrom cur (choiceOrder s.cargo.queue) := by
  rw [State.headCandidate, if_pos hgate, hcur]

theorem select_cargo (hslot : s.bus.slot = none) (hctrl : s.bus.ctrl = .listening) :
    s.select = (s.headCandidate.1, s.headCandidate.2.map fun e => .cargo e.ticket) := by
  rw [State.select, hslot]
  exact if_neg (by rw [hctrl]; decide)

/-- The oldest URGENT entry comes first in the choice, or with none the oldest ROUTINE one; and what comes behind it
is the choice from the other entries. -/
theorem choiceOrder_head (hflight : ∀ y ∈ before ++ x :: after, y.inFlight = false)
    (hurgent : x.urgent = true → ∀ y ∈ before, y.urgent = false)
    (hroutine : x.urgent = false → before = [] ∧ ∀ y ∈ before ++ x :: after, y.urgent = false) :
    choiceOrder (before ++ x :: after) = x :: choiceOrder (before ++ after) := by
  have hx : x.inFlight = false := hflight x (List.mem_append_right _ List.mem_cons_self)
  unfold choiceOrder
  cases hu : x.urgent with
  | true =>
    have hnone : before.filter (fun y => y.urgent && !y.inFlight) = [] :=
      List.filter_eq_nil_iff.mpr fun y hy => by simp [hurgent hu y hy]
    rw [List.filter_append, List.filter_append, List.filter_append, List.filter_append, hnone,
      List.filter_cons_of_pos (by simp [hu, hx]), List.filter_cons_of_neg (by simp [hu])]
    rfl
  | false =>
    obtain ⟨rfl, hall⟩ := hroutine hu
    have hnone {l : List TxEntry} (hl : l ⊆ x :: after) : l.filter (fun y => y.urgent && !y.inFlight) = [] :=
      List.filter_eq_nil_iff.mpr fun y hy => by simp [hall y (hl hy)]
    rw [List.nil_append, List.nil_append, hnone (List.Subset.refl _), hnone (List.subset_cons_self _ _),
      List.filter_cons_of_pos (by simp [hu, hx])]
    rfl

/-- An entry that names another station is the head candidate. -/
theorem chooseFrom_names {xs : List TxEntry} (h : ¬ namesOwn cur x.dest = true) :
    s.chooseFrom cur (x :: xs) = (s, some x) := if_neg h

theorem chooseFrom_drops {xs : List TxEntry} (h : namesOwn cur x.dest = true) :
    s.chooseFrom cur (x :: xs) = (s.removeEntry x.ticket .unresolved none).chooseFrom cur xs := if_pos h

/-- The head candidate goes in flight with its frame fixed (R130). -/
theorem startFrame_cargo (hcur : s.comp.current = some cur) (hq : s.cargo.queue = before ++ x :: after)
    (hnodup : (s.cargo.queue.map TxEntry.ticket).Nodup) :
    s.startFrame (.cargo x.ticket) = { s with
      cargo := { s.cargo with queue := before ++ { x with inFlight := true } :: after }
      bus := { s.bus with
        ctrl := .transmitting, idle := false, idleDue := none, intermissionEnd := none
        selected := none
        tx := some
          ⟨{ cls := if x.urgent then 4 else 6, source := s.identity, grade := s.bus.cargoGrade
             body := cargoBody cur x },
           .cargo x.ticket (wireDest cur x.dest).2.2⟩ } } := by
  rw [State.startFrame, entryOf_split hq hnodup, hcur]
  dsimp only
  rw [mapEntry_split _ hq hnodup]
  rfl

/-- Settles O25, by the head of the choice. -/
theorem idleSendsHeadCandidate : Obligations.IdleSendsHeadCandidate := by
  intro s cur before after x hctrl hrx hslot hdue hpassed hgate hcur
  have hselect : s.idling.select = (s.idling.headCandidate.1, s.idling.headCandidate.2.map fun e => .cargo e.ticket) :=
    select_cargo hslot hctrl
  have hhead : s.idling.headCandidate = s.idling.chooseFrom cur (choiceOrder s.cargo.queue) :=
    headCandidate_eq hgate hcur
  rw [exec_busIdle_listening hctrl hrx hdue]
  refine ⟨fun hq => ?empty, ?queued⟩
  case empty =>
    rw [hq] at hhead
    rw [hhead] at hselect
    rw [atIdle_of_select_none hselect]
    rfl
  case queued =>
    intro hq hnodup hflight hurgent hroutine own
    have horder : choiceOrder s.cargo.queue = x :: choiceOrder (before ++ after) := by
      rw [hq] at hflight hroutine ⊢
      exact choiceOrder_head hflight hurgent hroutine
    rw [horder] at hhead
    refine ⟨fun hother => ?sent, fun hown hroom => ?dropped⟩
    case sent =>
      rw [hhead, chooseFrom_names fun h => hother (namesOwn_iff.mp h)] at hselect
      rw [atIdle_sends hselect hctrl (inIntermission_false hpassed),
        startFrame_cargo (s := s.idling) hcur hq hnodup]
      rfl
    case dropped =>
      have hremoved := removeEntry_split (s := s.idling) (kind := .unresolved) (p := none) hq hnodup hroom
      rw [exec_busIdle_listening (by exact hctrl) (by exact hrx) (by exact hdue)]
      refine congrArg _ (atIdle_congr ?_)
      rw [hselect, hhead, chooseFrom_drops (namesOwn_iff.mpr hown), hremoved, select_cargo (by exact hslot) (by exact hctrl),
        headCandidate_eq (by exact hgate) (by exact hcur)]
      rfl

end Sys2Proof.Machine
end

section
/-! What becomes of an own frame that is cut off, and of the reception that follows it (R32, R131, R133, R136). -/

namespace Sys2Proof.Machine

variable {s t : State} {f : Frame} {y z : TxEntry} {before after : List TxEntry} {ticket k n : Nat}
  {permitted : BitVec 4} {r x : Rx} {bits : List Bool}

/-! ## The owner -/

theorem handBack_eq (f : CompFrame) (s : State) : s.handBack f = s.setBus { s.bus with slot := s.bus.slotWith f } := by
  obtain ⟨now, chainA, chainB, bus, comp, cargo, grade, port, pending⟩ := s
  obtain ⟨_, _, _, _, _, slot⟩ := bus
  cases slot <;> rfl

/-- The state with what the cargo router can change: its queues and the flags. -/
def State.routed (c : Cargo) (flags : BitVec 15) (s : State) : State :=
  { s with cargo := c, port := { s.port with flags := flags } }

theorem EntryReturns.mono {answers answers' : State → Prop} (h : EntryReturns s before after y n answers)
    (himp : ∀ c flags, answers (s.routed c flags) → answers' (s.routed c flags)) :
    EntryReturns s before after y n answers' where
  back hl ho := himp _ s.port.flags (h.back hl ho)
  renamed cur z hl ho hcur hz := himp _ s.port.flags (h.renamed cur z hl ho hcur hz)
  gone kind hroom hgone := himp _ _ (h.gone kind hroom hgone)

theorem returnEntry_lapsed (hy : s.entryOf ticket = some y) (hl : y.lapsed = true) :
    s.returnEntry ticket = s.removeEntry ticket .expired none := by
  rw [State.returnEntry, hy]
  exact if_pos hl

theorem returnEntry_back (hy : s.entryOf ticket = some y) (hl : y.lapsed = false) (ho : y.renameOwed = false) :
    s.returnEntry ticket = s.mapEntry ticket fun _ => { y with inFlight := false } := by
  rw [State.returnEntry, hy]
  exact (if_neg (by rw [hl]; decide)).trans (if_neg (by rw [ho]; decide))

theorem returnEntry_renamed {cur : Roster} (hy : s.entryOf ticket = some y) (hl : y.lapsed = false)
    (ho : y.renameOwed = true) (hcur : s.comp.current = some cur)
    (hz : reviewEntry s.comp.previous cur { y with inFlight := false } = .ok z) :
    s.returnEntry ticket = s.mapEntry ticket fun _ => z := by
  rw [State.returnEntry, hy]
  dsimp only
  rw [if_neg (by rw [hl]; decide), if_pos ho, hcur]
  dsimp only
  rw [hz]

theorem returnEntry_departed {cur : Roster} {kind : OutcomeKind} (hy : s.entryOf ticket = some y)
    (hl : y.lapsed = false) (ho : y.renameOwed = true) (hcur : s.comp.current = some cur)
    (hz : reviewEntry s.comp.previous cur { y with inFlight := false } = .error kind) :
    s.returnEntry ticket = s.removeEntry ticket kind none := by
  rw [State.returnEntry, hy]
  dsimp only
  rw [if_neg (by rw [hl]; decide), if_pos ho, hcur]
  dsimp only
  rw [hz]

/-- An entry that leaves flight, whatever has become of controller and grade monitor. -/
theorem returnEntry_returns (b : Bus) (g : GradeMonitor) (hq : s.cargo.queue = before ++ y :: after)
    (hnodup : (s.cargo.queue.map TxEntry.ticket).Nodup) :
    EntryReturns s before after y y.attempts fun u =>
      ((s.setBus b).setGrade g).returnEntry y.ticket = (u.setBus b).setGrade g := by
  have hy : ((s.setBus b).setGrade g).entryOf y.ticket = some y := entryOf_split (s := s) hq hnodup
  refine ⟨fun hl ho => ?back, fun cur z hl ho hcur hz => ?renamed, fun kind hroom hgone => ?gone⟩
  case back =>
    rw [returnEntry_back hy hl ho]
    exact mapEntry_split _ hq hnodup
  case renamed =>
    rw [returnEntry_renamed hy hl ho hcur hz]
    exact mapEntry_split _ hq hnodup
  case gone =>
    have hremoved := removeEntry_split (s := (s.setBus b).setGrade g) (kind := kind) (p := none) hq hnodup hroom
    obtain ⟨hl, rfl⟩ | ⟨hl, ho, cur, hcur, hz⟩ := hgone
    · rw [returnEntry_lapsed hy hl, hremoved]
      rfl
    · rw [returnEntry_departed hy hl ho hcur hz, hremoved]
      rfl

/-! ## The receiver of the bits read back -/

theorem Rx.idleAfter_more (h : r.feed permitted bits = .more x) : r.idleAfter permitted bits = x.untilIdle := by
  induction bits generalizing r with
  | nil =>
    rw [Rx.feed, RxResult.more.injEq] at h
    rw [Rx.idleAfter, h]
  | cons b bits ih =>
    cases hstep : r.step permitted b with
    | more r' =>
      rw [Rx.feed_cons hstep] at h
      rw [Rx.idleAfter_cons hstep, ih h]
    | error e | skip | complete g => simp [Rx.feed, hstep] at h

/-- Four wire bits in five are content, or more (R28). -/
theorem stuffFrom_length (last : Bool) {run : Nat} (hrun : run ≤ 5) (content : List Bool) :
    4 * (stuffFrom last run content).length ≤ 5 * content.length + run := by
  induction content generalizing last run with
  | nil =>
    by_cases h : run = 5
    · rw [h, stuffFrom_five, stuffFrom_nil (by decide), List.length_singleton]
      omega
    · rw [stuffFrom_nil h]
      exact Nat.zero_le _
  | cons b bits ih =>
    rw [stuffFrom]
    split_ifs with h hsame hsame
    · have := ih b (show 2 ≤ 5 by decide)
      simp only [List.length_cons]
      omega
    · have := ih b (show 1 ≤ 5 by decide)
      simp only [List.length_cons]
      omega
    · have := ih b (show run + 1 ≤ 5 by omega)
      simp only [List.length_cons]
      omega
    · have := ih b (show 1 ≤ 5 by decide)
      simp only [List.length_cons]
      omega

theorem Frame.arbitrationLength_le (f : Frame) : f.arbitrationLength ≤ 45 := by
  have hlength := stuffFrom_length false (show 1 ≤ 5 by decide) (f.contentBits.take 35)
  have htake := List.length_take_le 35 f.contentBits
  rw [Frame.arbitrationLength]
  omega

theorem Rx.judge_taken (h : r.judge permitted = .more x) : x.taken = r.taken := by
  unfold Rx.judge Rx.judgeCrc at h
  split_ifs at h <;> cases h <;> rfl

theorem Rx.judge_incomplete (g : Frame) : r.judge permitted ≠ .complete g := by
  unfold Rx.judge Rx.judgeCrc
  split_ifs <;> nofun

theorem Rx.judgeCrc_taken (h : r.judgeCrc = .more x) : x.taken = r.taken := by
  unfold Rx.judgeCrc at h
  split_ifs at h
  cases h
  rfl

theorem Rx.step_taken {b : Bool} (h : r.step permitted b = .more x) : x.taken.length ≤ r.taken.length + 1 := by
  unfold Rx.step Rx.judgeBit at h
  by_cases hwaiting : (r.hear b).waiting = true
  · rw [if_pos hwaiting] at h
    split_ifs at h
    cases h
    exact Nat.le_succ _
  rw [if_neg hwaiting] at h
  by_cases hrun : (r.hear b).run = 5
  · rw [if_pos hrun] at h
    split_ifs at h
    · cases h
      exact Nat.le_succ _
    · rw [Rx.judgeCrc_taken h]
      exact Nat.le_succ _
    · cases h
      exact Nat.le_succ _
  rw [if_neg hrun] at h
  by_cases hdone : (r.hear b).contentComplete = true
  · rw [if_pos hdone] at h
    split_ifs at h
    cases h
    exact Nat.le_succ _
  · rw [if_neg hdone] at h
    rw [Rx.judge_taken h]
    exact Nat.le_refl _

theorem Rx.step_complete {b : Bool} {g : Frame} (h : r.step permitted b = .complete g) : 61 ≤ r.taken.length := by
  by_contra hshort
  have hopen : (r.hear b).contentComplete = false := by
    refine Bool.eq_false_iff.mpr fun hdone => hshort ?_
    have hdone : r.contentComplete = true := hdone
    simp only [Rx.contentComplete, Bool.and_eq_true, decide_eq_true_eq] at hdone
    omega
  unfold Rx.step Rx.judgeBit at h
  rw [hopen, if_neg Bool.false_ne_true, if_neg Bool.false_ne_true] at h
  by_cases hwaiting : (r.hear b).waiting = true
  · rw [if_pos hwaiting] at h
    split_ifs at h
  · rw [if_neg hwaiting] at h
    by_cases hrun : (r.hear b).run = 5
    · rw [if_pos hrun] at h
      split_ifs at h
    · rw [if_neg hrun] at h
      exact Rx.judge_incomplete g h

/-- A frame is complete only after its class, source, header and CRC. -/
theorem Rx.feed_complete {g : Frame} (h : r.feed permitted bits = .complete g) :
    61 < r.taken.length + bits.length := by
  induction bits generalizing r with
  | nil => exact absurd h nofun
  | cons b bits ih =>
    rw [List.length_cons]
    cases hstep : r.step permitted b with
    | more r' =>
      rw [Rx.feed_cons hstep] at h
      have := ih h
      have := Rx.step_taken hstep
      omega
    | error e | skip => simp [Rx.feed, hstep] at h
    | complete g' =>
      have := Rx.step_complete hstep
      omega

theorem Frame.readBack_length (f : Frame) (k : Nat) : (f.readBack k).length ≤ k := by
  unfold Frame.readBack
  cases hk : f.wireBits[k]? with
  | none => simp
  | some b =>
    have hlt := (List.getElem?_eq_some_iff.mp hk).1
    by_cases h0 : k = 0
    · simp [h0]
    · simp [h0]
      omega

/-- What a station reads back of the arbitration field is no frame. -/
theorem Rx.feed_readBack (hk : k < f.arbitrationLength) (g : Frame) :
    Rx.afterStart.feed permitted (f.readBack k) ≠ .complete g := by
  intro h
  have hlong := Rx.feed_complete h
  have hread := f.readBack_length k
  have harb := f.arbitrationLength_le
  have hstart : Rx.afterStart.taken.length = 0 := rfl
  omega

/-! ## Reception of an own frame -/

theorem receive_more (hread : r.feed s.permitted bits = .more x) :
    s.receive r bits = { s with bus := { s.bus with rx := some x, idleDue := some (s.now + x.untilIdle) } } := by
  rw [State.receive, hread, Rx.idleAfter_more hread]
  rfl

theorem receive_skip (hread : r.feed s.permitted bits = .skip) :
    s.receive r bits = { s with bus := { s.bus with
      ctrl := if s.bus.ctrl = .receiving then .listening else s.bus.ctrl, rx := none
      idleDue := some (s.now + r.idleAfter s.permitted bits), counters := s.bus.counters.raise .gradeSkip } } := by
  rw [State.receive, hread]
  rfl

theorem receive_error {e : RxError} (hread : r.feed s.permitted bits = .error e) :
    s.receive r bits = { s with
      bus := { s.bus with
        ctrl := if s.bus.ctrl = .receiving then .listening else s.bus.ctrl, rx := none
        idleDue := some (s.now + r.idleAfter s.permitted bits), counters := s.bus.counters.raise e.counter }
      grade := { s.grade with errors := min 255 (s.grade.errors + 1) } } := by
  rw [State.receive, hread]
  rfl

/-- Unless a frame is complete, receiving touches the controller's reception and the error counts alone. -/
theorem receive_shape (hread : ∀ g, r.feed s.permitted bits ≠ .complete g) :
    ∃ ctrl rx due counters grade, s.receive r bits = { s with
      bus := { s.bus with ctrl := ctrl, rx := rx, idleDue := due, counters := counters }, grade := grade } := by
  cases h : r.feed s.permitted bits with
  | more x => exact ⟨_, _, _, _, _, receive_more h⟩
  | skip => exact ⟨_, _, _, _, _, receive_skip h⟩
  | error e => exact ⟨_, _, _, _, _, receive_error h⟩
  | complete g => exact absurd h (hread g)

/-! ## Lost arbitration, and a dominant bit read recessive -/

theorem exec_lostArbitration {x : Tx} (htx : s.bus.tx = some x) (hk : k < x.frame.arbitrationLength)
    (hbit : x.frame.wireBits[k]? = some true) :
    exec (.lostArbitration k) s =
      .next ((s.stopDriving.giveBack x.origin).beginReceiving.receive .afterStart (x.frame.readBack k)) := by
  have hexec : exec (.lostArbitration k) s = execLostArbitration k s := rfl
  rw [hexec, execLostArbitration, htx]
  exact if_pos ⟨hk, hbit⟩

theorem exec_dominantReadRecessive {x : Tx} (htx : s.bus.tx = some x) (hk : k < x.frame.arbitrationLength)
    (hbit : x.frame.wireBits[k]? = some false) :
    exec (.dominantReadRecessive k) s = .next ((s.stopDriving.giveBack x.origin).awaitIdle x.frame k) := by
  have hexec : exec (.dominantReadRecessive k) s = execDominantReadRecessive s k := rfl
  rw [hexec, execDominantReadRecessive, htx]
  exact if_pos ⟨hk, hbit⟩

/-- The bus of a station that stops driving (R32, R34). -/
def Bus.undriven (b : Bus) : Bus := { b with ctrl := .listening, tx := none }

theorem stopDriving_eq (s : State) : s.stopDriving = (s.setBus s.bus.undriven).setGrade s.grade := rfl

theorem awaitIdle_eq (f : Frame) (k : Nat) (s : State) :
    s.awaitIdle f k = s.setBus { s.bus with
      idle := decide (k = 0) || s.bus.idle
      idleDue := if k = 0 then none else some (s.now + f.idleAfter k) } := by
  unfold State.awaitIdle
  by_cases hk : k = 0
  · rw [if_pos hk, if_pos hk, decide_eq_true hk]
    rfl
  · rw [if_neg hk, if_neg hk, decide_eq_false hk]
    rfl

/-- Settles O31, by the owner of the frame and the bit that cuts it off. -/
theorem frameHandedBackUncounted : Obligations.FrameHandedBackUncounted := by
  refine ⟨?lost, ?read⟩
  case lost =>
    intro s x k hctrl htx hk hbit
    dsimp only
    refine ⟨fun f ho => ?comp, fun ticket p before after y ho hq hnodup hy => ?cargo⟩
    case comp =>
      have hexec := exec_lostArbitration htx hk hbit
      rw [ho, State.giveBack, handBack_eq] at hexec
      refine ⟨⟨_, hexec, ?_⟩, fun r hr => ?_⟩
      · obtain ⟨_, _, _, _, _, hshape⟩ := receive_shape (s := (s.stopDriving.setBus
          { s.stopDriving.bus with slot := s.stopDriving.bus.slotWith f }).beginReceiving)
          (r := .afterStart) (Rx.feed_readBack hk)
        rw [hshape]
        exact ⟨rfl, rfl, rfl, rfl, rfl, rfl, rfl, rfl, rfl⟩
      · rw [hexec, receive_more (by exact hr)]
        rfl
    case cargo =>
      have hexec := exec_lostArbitration htx hk hbit
      rw [ho, State.giveBack, ← hy, stopDriving_eq] at hexec
      refine (returnEntry_returns s.bus.undriven s.grade hq hnodup).mono fun c flags hu => ?_
      rw [hu] at hexec
      refine ⟨⟨_, hexec, ?_⟩, fun r hr => ?_⟩
      · obtain ⟨_, _, _, _, _, hshape⟩ := receive_shape 
          (s := (((s.routed c flags).setBus s.bus.undriven).setGrade s.grade).beginReceiving)
          (r := .afterStart) (Rx.feed_readBack hk)
        rw [hshape]
        exact ⟨rfl, rfl, rfl, rfl, rfl, rfl, rfl, rfl, rfl⟩
      · rw [hexec, receive_more (by exact hr)]
        rfl
  case read =>
    intro s x k hctrl htx hk hbit
    dsimp only
    refine ⟨fun f ho => ?comp, fun ticket p before after y ho hq hnodup hy => ?cargo⟩
    case comp =>
      have hexec := exec_dominantReadRecessive htx hk hbit
      rw [ho, State.giveBack, handBack_eq, awaitIdle_eq] at hexec
      exact hexec
    case cargo =>
      have hexec := exec_dominantReadRecessive htx hk hbit
      rw [ho, State.giveBack, ← hy, stopDriving_eq] at hexec
      refine (returnEntry_returns s.bus.undriven s.grade hq hnodup).mono fun c flags hu => ?_
      rw [hu, awaitIdle_eq] at hexec
      exact hexec

end Sys2Proof.Machine
end

section
/-! Strikes, rests and clean completions (R33 to R35, R131). -/

namespace Sys2Proof.Machine

variable {s t w : State} {f : Frame} {y : TxEntry} {before after : List TxEntry} {k : Nat}

/-! ## The owner of a struck frame (R131) -/

/-- The grade monitor after one more error (R115). -/
def GradeMonitor.erred (g : GradeMonitor) : GradeMonitor := { g with errors := min 255 (g.errors + 1) }

/-- The bus after a strike (R34). -/
def Bus.struck (b : Bus) : Bus := { b.undriven with strikes := min 16 (b.strikes + 1) }

/-- A state whose controller and grade monitor have counted a strike (R34, R115). -/
def State.struckBy (b : Bus) (g : GradeMonitor) (s : State) : State := (s.setBus b.struck).setGrade g.erred

theorem countStrike_eq (s : State) : s.stopDriving.countStrike = s.struckBy s.bus s.grade := rfl

theorem strikeEntry_last (hq : s.cargo.queue = before ++ y :: after)
    (hnodup : (s.cargo.queue.map TxEntry.ticket).Nodup) (h : y.attempts = 2) :
    s.strikeEntry y.ticket = s.removeEntry y.ticket .busFailure none := by
  rw [State.strikeEntry, entryOf_split hq hnodup]
  exact if_pos (by omega)

theorem strikeEntry_counts (hq : s.cargo.queue = before ++ y :: after)
    (hnodup : (s.cargo.queue.map TxEntry.ticket).Nodup) (h : y.attempts < 2) :
    s.strikeEntry y.ticket = State.returnEntry y.ticket { s with cargo := { s.cargo with
      queue := before ++ { y with attempts := y.attempts + 1 } :: after } } := by
  rw [State.strikeEntry, entryOf_split hq hnodup]
  dsimp only
  rw [if_neg (by omega), mapEntry_split _ hq hnodup]

/-- What the owner makes of a struck frame, whatever has become of controller and grade monitor. -/
theorem giveBackStruck_returns (o : Origin) (s : State) :
    StruckFrameReturns s o fun u =>
      (s.struckBy s.bus s.grade).giveBackStruck o = u.struckBy u.bus s.grade := by
  refine ⟨fun f ho => ?comp, fun ticket p before after y ho hq hnodup hy =>
    ⟨fun hattempts => ?counted, fun hattempts hroom => ?last⟩⟩
  case comp =>
    rw [ho, State.giveBackStruck, handBack_eq]
    rfl
  all_goals rw [ho, State.giveBackStruck, ← hy]
  case counted =>
    rw [strikeEntry_counts (s := s.struckBy s.bus s.grade) hq hnodup hattempts]
    have hreturns := returnEntry_returns (y := { y with attempts := y.attempts + 1 })
      (s := { s with cargo := { s.cargo with queue := before ++ { y with attempts := y.attempts + 1 } :: after } })
      s.bus.struck s.grade.erred rfl (by
        rw [hq, List.map_append, List.map_cons] at hnodup
        rw [List.map_append, List.map_cons]
        exact hnodup)
    exact ⟨hreturns.back, hreturns.renamed, hreturns.gone⟩
  case last =>
    rw [strikeEntry_last (s := s.struckBy s.bus s.grade) hq hnodup hattempts,
      removeEntry_split (s := s.struckBy s.bus s.grade) hq hnodup hroom]
    rfl

/-- What a struck frame's owner leaves is the state with another slot, other queues or other flags. -/
theorem StruckFrameReturns.mono {o : Origin} {answers answers' : State → Prop}
    (h : StruckFrameReturns s o answers)
    (himp : ∀ slot c flags, answers { s.routed c flags with bus := { s.bus with slot := slot } } →
      answers' { s.routed c flags with bus := { s.bus with slot := slot } }) :
    StruckFrameReturns s o answers' where
  comp f ho := himp _ s.cargo s.port.flags (h.comp f ho)
  cargo ticket p before after y ho hq hnodup hy :=
    ⟨fun hattempts => ((h.cargo ticket p before after y ho hq hnodup hy).1 hattempts).mono
        fun c flags => himp s.bus.slot c flags,
      fun hattempts hroom => himp s.bus.slot
        { s.cargo with queue := before ++ after, outcomes := s.cargo.outcomes ++ [⟨ticket, .busFailure, none⟩] }
        (s.port.flags ||| 0x0040#15) ((h.cargo ticket p before after y ho hq hnodup hy).2 hattempts hroom)⟩

/-! ## Rest or stop (R35) -/

/-- The state at the beginning of a rest (R35). -/
def State.rested (s : State) : State := { s with
  bus := { s.bus with ctrl := .resting, latestRest := some s.now, restDue := some (s.now + 2000000) }
  port := { s.port with flags := s.port.flags ||| 0x0200#15 } }

theorem restOrStop_rests (h : ∀ r, s.bus.latestRest = some r → r + 40000000 < s.now) : s.restOrStop = s.rested := by
  rw [State.restOrStop, recent_false h, if_neg Bool.false_ne_true]
  rfl

theorem restOrStop_stops (h : ∃ r, s.bus.latestRest = some r ∧ s.now ≤ r + 40000000) : s.restOrStop = s.stop := by
  rw [State.restOrStop, recent_iff.mpr h, if_pos rfl]

/-- What the stop changes does not depend on the state of controller, reception and error counts. -/
theorem PartStops.heard (h : PartStops s t) (ctrl : Ctrl) (rx : Option Rx) (due : Option Ticks) (counters : Counters)
    (grade : GradeMonitor) :
    PartStops
      { s with bus := { s.bus with ctrl := ctrl, rx := rx, idleDue := due, counters := counters }, grade := grade }
      { t with bus := { t.bus with rx := rx, idleDue := due, counters := counters }, grade := grade } where
  bus := by
    dsimp only
    rw [h.bus]
  port := h.port
  silenced := h.silenced
  comp := h.comp
  queue := h.queue
  flushed := h.flushed
  rest := by
    dsimp only
    conv_lhs => rw [h.rest]

/-! ## The reception after a strike -/

/-- The states a counted strike can leave: the controller goes on, rests or has stopped, with clock, configuration,
reception and error counts as they were. -/
structure AfterStrike (w t : State) : Prop where
  now       : t.now = w.now
  permitted : t.permitted = w.permitted
  rx        : t.bus.rx = w.bus.rx
  counters  : t.bus.counters = w.bus.counters
  grade     : t.grade = w.grade
  ctrl      : t.bus.ctrl = .listening ∨ t.bus.ctrl = .resting ∨ t.bus.ctrl = .silenced

theorem AfterStrike.self (h : w.bus.ctrl = .listening) : AfterStrike w w := ⟨rfl, rfl, rfl, rfl, rfl, .inl h⟩

theorem AfterStrike.rested (w : State) : AfterStrike w w.rested := ⟨rfl, rfl, rfl, rfl, rfl, .inr (.inl rfl)⟩

theorem AfterStrike.stop (w : State) : AfterStrike w w.stop := by
  obtain ⟨hbus, hport, -, -, -, -, hrest⟩ := stop_partStops w
  refine ⟨by rw [hrest], ?_, by rw [hbus], by rw [hbus], by rw [hrest], .inr (.inr (by rw [hbus]))⟩
  rw [State.permitted, hport]
  rfl

/-- What follows a strike: `next` is the state of a controller that goes on, and RESTING and SILENCED stay. -/
def State.finished (next : Ctrl) (rx : Option Rx) (due : Option Ticks) (counters : Counters) (grade : GradeMonitor)
    (t : State) : State := { t with
  bus := { t.bus with
    ctrl := if t.bus.ctrl = .listening then next else t.bus.ctrl, rx := rx, idleDue := due, counters := counters }
  grade := grade }

theorem AfterStrike.awaitIdle (h : AfterStrike w t) (hk : k ≠ 0) :
    t.awaitIdle f k =
      t.finished .listening w.bus.rx (some (w.now + f.idleAfter k)) w.bus.counters w.grade := by
  have hctrl : (if t.bus.ctrl = .listening then Ctrl.listening else t.bus.ctrl) = t.bus.ctrl := by
    split
    · next hl => exact hl.symm
    · rfl
  rw [awaitIdle_eq, if_neg hk, decide_eq_false hk, State.finished, hctrl, ← h.now, ← h.rx, ← h.counters, ← h.grade]
  rfl

theorem AfterStrike.receive_more {bits : List Bool} {r x : Rx} (h : AfterStrike w t)
    (hread : r.feed w.permitted bits = .more x) :
    t.beginReceiving.receive r bits =
      t.finished .receiving (some x) (some (w.now + x.untilIdle)) w.bus.counters w.grade := by
  rw [← h.permitted] at hread
  rw [Machine.receive_more (s := t.beginReceiving) hread, State.finished, ← h.now, ← h.counters, ← h.grade]
  rfl

/-- A reception that ends at once leaves a controller that goes on in LISTENING. -/
theorem AfterStrike.ctrl_ended (h : AfterStrike w t) :
    (if t.beginReceiving.bus.ctrl = .receiving then .listening else t.beginReceiving.bus.ctrl) =
      if t.bus.ctrl = .listening then Ctrl.listening else t.bus.ctrl := by
  obtain hc | hc | hc := h.ctrl <;> simp [State.beginReceiving, hc]

theorem AfterStrike.receive_error {bits : List Bool} {r : Rx} {e : RxError} (h : AfterStrike w t)
    (hread : r.feed w.permitted bits = .error e) :
    t.beginReceiving.receive r bits =
      t.finished .listening none (some (w.now + r.idleAfter w.permitted bits)) (w.bus.counters.raise e.counter)
        w.grade.erred := by
  have hended := h.ctrl_ended
  rw [← h.permitted] at hread ⊢
  rw [Machine.receive_error (s := t.beginReceiving) hread, State.finished, ← h.now, ← h.counters, ← h.grade, hended]
  rfl

theorem AfterStrike.receive_skip {bits : List Bool} {r : Rx} (h : AfterStrike w t)
    (hread : r.feed w.permitted bits = .skip) :
    t.beginReceiving.receive r bits =
      t.finished .listening none (some (w.now + r.idleAfter w.permitted bits)) (w.bus.counters.raise .gradeSkip)
        w.grade := by
  have hended := h.ctrl_ended
  rw [← h.permitted] at hread ⊢
  rw [Machine.receive_skip (s := t.beginReceiving) hread, State.finished, ← h.now, ← h.counters, ← h.grade, hended]
  rfl

/-! ## The whole strike -/

/-- The controller goes on in a state, rests or stops, as strikes and latest rest say (R34, R35): `v` is the state as the
strike and the reception after it leave the rest. -/
def GoesOn (s : State) (k : Nat) (ctrl : Ctrl) (v : State) : Prop :=
  (s.bus.strikes < 15 → exec (.strike k) s = .next { v with bus := { v.bus with ctrl := ctrl } }) ∧
  (15 ≤ s.bus.strikes → (∀ r, s.bus.latestRest = some r → r + 40000000 < s.now) →
    exec (.strike k) s = .next { v with
      bus := { v.bus with
        ctrl := .resting, latestRest := some s.now, restDue := some (s.now + 2000000) }
      port := { v.port with flags := v.port.flags ||| 0x0200#15 } }) ∧
  (15 ≤ s.bus.strikes → (∃ r, s.bus.latestRest = some r ∧ s.now ≤ r + 40000000) →
    ∃ t, exec (.strike k) s = .next t ∧ PartStops v t)

/-- A strike counted in `w`, whose owner has the frame back, and the reception that follows it. -/
theorem goesOn_finished {finish : State → State} {next ctrl : Ctrl} {rx : Option Rx} {due : Option Ticks}
    {counters : Counters} {grade : GradeMonitor}
    (hexec : exec (.strike k) s = .next (finish (if w.bus.strikes = 16 then w.restOrStop else w)))
    (hfinish : ∀ t, AfterStrike w t → finish t = t.finished next rx due counters grade)
    (hctrl : w.bus.ctrl = .listening) (hstrikes : w.bus.strikes = min 16 (s.bus.strikes + 1))
    (hlatest : w.bus.latestRest = s.bus.latestRest) (hnow : w.now = s.now) :
    GoesOn s k next { w with
      bus := { w.bus with ctrl := ctrl, rx := rx, idleDue := due, counters := counters }, grade := grade } := by
  refine ⟨fun hfew => ?goes, fun hmany hfar => ?rests, fun hmany hnear => ?stops⟩
  case goes =>
    rw [hexec, if_neg (by omega), hfinish w (.self hctrl), State.finished, hctrl]
    rfl
  all_goals rw [hexec, if_pos (by omega)]
  case rests =>
    rw [restOrStop_rests (by rwa [hlatest, hnow]), hfinish _ (.rested w), ← hnow]
    rfl
  case stops =>
    rw [restOrStop_stops (by rwa [hlatest, hnow]), hfinish _ (.stop w), State.finished]
    have hstops := (stop_partStops w).heard ctrl rx due counters grade
    have hsilenced : w.stop.bus.ctrl = .silenced := by rw [(stop_partStops w).bus]
    refine ⟨_, rfl, ?_⟩
    rw [if_neg (by rw [hsilenced]; decide)]
    exact hstops

theorem exec_strike {x : Tx} {b : Bool} (htx : s.bus.tx = some x) (hk : x.frame.arbitrationLength ≤ k)
    (hbit : x.frame.wireBits[k]? = some b) :
    exec (.strike k) s = .next (if b then (s.struck x.origin).beginReceiving.receive .afterStart (x.frame.readBack k)
      else (s.struck x.origin).awaitIdle x.frame k) := by
  have hexec : exec (.strike k) s = execStrike k s := rfl
  rw [hexec, execStrike, htx]
  dsimp only
  rw [if_pos ⟨hk, (List.getElem?_eq_some_iff.mp hbit).1⟩, hbit]
  cases b <;> rfl

theorem struck_eq {o : Origin} (h : (s.struckBy s.bus s.grade).giveBackStruck o = w) :
    s.struck o = if w.bus.strikes = 16 then w.restOrStop else w := by
  rw [State.struck, countStrike_eq, h]

/-- Settles O32, by the owner, the bit that struck and what the station reads. -/
theorem strikeCountsAndRests : Obligations.StrikeCountsAndRests := by
  refine ⟨?strike, fun s t hctrl hdue => ?rest⟩
  case strike =>
    intro s x k hctrl htx hk
    dsimp only
    refine (giveBackStruck_returns x.origin s).mono fun slot c flags hgive => ?_
    have harbitration : k ≠ 0 := by
      rw [Frame.arbitrationLength] at hk
      omega
    have hstruck := struck_eq hgive
    refine ⟨fun hbit => ?dominant, fun hbit => ⟨fun r hr => ?more, fun e he => ?error, fun hskip => ?skip⟩⟩
    all_goals
      have hexec := exec_strike htx hk hbit
      rw [hstruck] at hexec
    case dominant =>
      exact goesOn_finished (finish := fun t => t.awaitIdle x.frame k) hexec (fun t ht => ht.awaitIdle harbitration)
        rfl rfl rfl rfl
    case more =>
      exact goesOn_finished (finish := fun t => t.beginReceiving.receive .afterStart (x.frame.readBack k)) hexec
        (fun t ht => ht.receive_more hr) rfl rfl rfl rfl
    case error =>
      exact goesOn_finished (finish := fun t => t.beginReceiving.receive .afterStart (x.frame.readBack k)) hexec
        (fun t ht => ht.receive_error he) rfl rfl rfl rfl
    case skip =>
      exact goesOn_finished (finish := fun t => t.beginReceiving.receive .afterStart (x.frame.readBack k)) hexec
        (fun t ht => ht.receive_skip hskip) rfl rfl rfl rfl
  case rest =>
    have hexec : exec .restTimerExpiry s = execRestTimerExpiry s := rfl
    rw [hexec, execRestTimerExpiry, hdue]
    exact if_pos hctrl

/-! ## Clean completion (R33, R50) -/

theorem exec_cleanCompletion {x : Tx} (htx : s.bus.tx = some x) :
    exec .cleanCompletion s = .next ((s.completeOwn x.frame).reportCompletion x.origin) := by
  have hexec : exec .cleanCompletion s = execCleanCompletion s := rfl
  rw [hexec, execCleanCompletion, htx]

theorem tryPlacement_early (h : s.comp.state ≠ .offer ∨ s.comp.ownSent < 3) : s.tryPlacement = s := by
  have hdue : s.placementDue = false := by
    unfold State.placementDue
    obtain h | h := h
    · rw [decide_eq_false h]
      rfl
    · rw [decide_eq_false (not_le.mpr h), Bool.and_false]
      rfl
  rw [State.tryPlacement, hdue, if_neg Bool.false_ne_true]

/-- Settles O33, by the owner of the frame. -/
theorem cleanCompletionReportsToOwner : Obligations.CleanCompletionReportsToOwner := by
  intro s x hctrl htx
  dsimp only
  rw [exec_cleanCompletion htx]
  refine ⟨fun ticket p ho hroom => ?cargo, fun e d p ho => ?confirm, fun e d ho => ?presence, fun o ho =>
    ⟨fun hstate hsent => ?offer, fun hstate => ?late⟩⟩
  all_goals rw [ho, State.reportCompletion]
  case cargo =>
    rw [removeEntry_room (by exact hroom)]
    rfl
  case confirm | presence => rfl
  case offer =>
    rw [State.offerSent, tryPlacement_early (.inr (by exact hsent))]
    have hdone : (s.comp.offerDone || decide (s.comp.state = .offer)) = true := by
      rw [decide_eq_true hstate, Bool.or_true]
    rw [← hdone]
    rfl
  case late =>
    rw [State.offerSent, tryPlacement_early (.inl (by exact hstate))]
    have hdone : (s.comp.offerDone || decide (s.comp.state = .offer)) = s.comp.offerDone := by
      rw [decide_eq_false hstate, Bool.or_false]
    conv_rhs => rw [← hdone]
    rfl

end Sys2Proof.Machine
end

section
/-! The timers of a round: the quiet hold, the cadence, the last entry and the deadline (R69 to R80). -/

namespace Sys2Proof.Machine

variable {s t : State} {r : Roster} {id : Identity} {table : List HeardEntry} {x : HeardEntry}

/-! ## The heard table -/

/-- With no identity twice, an entry is the one that its identity finds. -/
theorem findEntry_eq (hx : x ∈ table) (hid : x.id = id) (hnodup : (table.map HeardEntry.id).Nodup) :
    findEntry id table = some x := by
  cases hfind : findEntry id table with
  | none => exact absurd hid (findEntry_eq_none_iff.mp hfind x hx)
  | some y =>
    obtain ⟨hy, hyid⟩ := findEntry_some hfind
    rw [List.inj_on_of_nodup_map hnodup hy hx (hyid.trans hid.symm)]

/-- Every HEARD entry has confirmed (R77). -/
theorem allConfirmed_iff (hnodup : (table.map HeardEntry.id).Nodup) :
    allConfirmed r table = true ↔ ∀ id ∈ r.heardIds, ∃ x ∈ table, x.id = id ∧ x.confirmed = some r.digest := by
  unfold allConfirmed
  rw [List.all_eq_true]
  refine forall₂_congr fun id _ => ⟨fun h => ?_, fun ⟨x, hx, hid, hconfirmed⟩ => ?_⟩
  · cases hfind : findEntry id table with
    | none => simp [hfind] at h
    | some x =>
      obtain ⟨hx, hid⟩ := findEntry_some hfind
      exact ⟨x, hx, hid, by simpa [hfind] using h⟩
  · rw [findEntry_eq hx hid hnodup]
    exact decide_eq_true hconfirmed

/-! ## A bus that is not idle -/

theorem sendWaiting_busy (h : s.bus.idle = false) : s.sendWaiting = s :=
  if_neg fun hw => Bool.false_ne_true (h.symm.trans hw.1)

theorem sendWaiting_comp (s : State) : s.sendWaiting.comp = s.comp := (sendWaiting_outside s).comp

theorem enterOffer_eq (s : State) : s.enterOffer = s.enteringOffer := rfl

/-- Its own confirm does not adopt a roster that a member has yet to confirm (R74, R77). -/
theorem ownConfirm_waits (hpending : s.comp.pendingRoster = some r)
    (hopen : allConfirmed r (mapTable s.identity (fun x => { x with confirmed := some r.digest }) s.comp.table) = false) :
    s.ownConfirm = { s with
      comp := { s.comp with
        cadenceDue := some (s.now + 320000)
        table := mapTable s.identity (fun x => { x with confirmed := some r.digest }) s.comp.table }
      bus := { s.bus with slot := some (.confirm s.comp.epoch r.digest r.ownPos) } } := by
  rw [State.ownConfirm, hpending]
  dsimp only
  rw [State.checkAdoption]
  have hkept : (State.setComp (State.handIn (.confirm s.comp.epoch r.digest r.ownPos)
      (s.recordConfirm s.identity r.digest))
      { (State.handIn (.confirm s.comp.epoch r.digest r.ownPos) (s.recordConfirm s.identity r.digest)).comp with
        cadenceDue := some (s.now + Config.cadence) }).comp.pendingRoster = some r := hpending
  rw [hkept]
  exact if_neg fun h => Bool.false_ne_true (hopen.symm.trans h)

/-- Settles O35, by the timer and the state it finds. -/
theorem offerTimersHandInFrames : Obligations.OfferTimersHandInFrames := by
  refine ⟨fun s d hstate hdue hbusy => ?hold, fun s d hdue hbusy => ⟨fun hstate => ?offer,
    fun r id x hstate hpending hother hmember hx hid hopen hnodup => ?confirm⟩, fun s i himage => ?content⟩
  case hold =>
    have hexec : exec .quietHoldEnd s = execQuietHoldEnd s := rfl
    rw [hexec, execQuietHoldEnd, hdue]
    dsimp only
    rw [if_pos hstate, sendWaiting_busy (by exact hbusy)]
    rfl
  case content =>
    unfold State.ownOffer State.offerCab State.cabEnds State.payloadMax
    rw [himage]
    rfl
  all_goals
    have hexec : exec .cadenceTimer s = execCadenceTimer s := rfl
    rw [hexec, execCadenceTimer, hdue]
    dsimp only
  case offer =>
    rw [if_pos hstate, sendWaiting_busy (by exact hbusy)]
    rfl
  case confirm =>
    rw [if_neg (by rw [hstate]; decide), if_pos hstate]
    have hdiffers : allConfirmed r
        (mapTable s.identity (fun x => { x with confirmed := some r.digest }) s.comp.table) = false := by
      have hids := mapTable_ids (id := s.identity) (f := fun x => { x with confirmed := some r.digest })
        (table := s.comp.table) fun x hx => hx
      refine Bool.eq_false_iff.mpr fun hall => hopen ?_
      rw [allConfirmed_iff (by rw [hids]; exact hnodup)] at hall
      obtain ⟨y, hy, hyid, hconfirmed⟩ := hall id hmember
      obtain ⟨z, hz, ⟨rfl, hown⟩ | ⟨rfl, -⟩⟩ := mem_mapTable hy
      · exact absurd (hyid.symm.trans hown) hother
      · rwa [List.inj_on_of_nodup_map hnodup hx hz (hid.trans hyid.symm)]
    rw [ownConfirm_waits (s := s.advanceTo d) hpending hdiffers, sendWaiting_busy (by exact hbusy)]
    rfl

/-! ## A failed round (R79, R80) -/

/-- A failure below the third goes on under a new epoch. -/
theorem roundFailed_goesOn (h : s.comp.failed < 2) :
    NewRound { s with comp := { s.comp with failed := s.comp.failed + 1 } } s.roundFailed (s.comp.epoch + 1)
      .roundFailed := by
  have hcount : min 255 (s.comp.failed + 1) = s.comp.failed + 1 := by omega
  have hnew := changeEpoch_newRound .roundFailed (s.comp.epoch + 1)
    { s with comp := { s.comp with failed := s.comp.failed + 1 } }
  rw [State.roundFailed, hcount]
  dsimp only
  rw [if_pos (by exact (by omega : s.comp.failed + 1 < 3))]
  exact hnew

/-- A failure counted (R79). -/
def State.noteFailure (s : State) : State :=
  { s with comp := { s.comp with reason := .roundFailed, failed := min 255 (s.comp.failed + 1) } }

/-- The third failure brings LIMP. -/
theorem roundFailed_limp (h : 2 ≤ s.comp.failed) : s.roundFailed = s.noteFailure.enterLimp := by
  rw [State.roundFailed]
  exact if_neg (by simp only [State.setComp_comp]; omega)

theorem adopt_cargoGrade (limp : Bool) (r : Roster) (s : State) : (s.adopt limp r).bus.cargoGrade = r.jointGrade := by
  unfold State.adopt
  simp only [State.notifyIf_bus, State.notify_bus, State.setComp_bus, State.setBus_bus]

theorem adopt_adopted (limp : Bool) (r : Roster) (s : State) : (s.adopt limp r).flagSet .adopted = true := by
  unfold State.adopt
  exact flagSet_of_gains ((notifyIf_cargoStep _ _ _).port) (flagSet_of_gains (notifyIf_cargoStep _ _ _).port
    (flagSet_notify .adopted _))

theorem adopt_limp (r : Roster) (s : State) : (s.adopt true r).flagSet .limp = true := flagSet_notify .limp _

/-- LIMP entry adopts a limp roster at the present epoch (R80, R82, R111). -/
structure LimpEntered (s t : State) (r : Roster) : Prop where
  step    : EngineStep s t
  status  : r.status = .limp
  grade   : r.jointGrade = .g1
  payload : r.jointPayload = .p16
  epoch   : r.epoch = s.comp.epoch
  comp    : t.comp = { s.comp with
    state := .limp, current := some r, pendingRoster := none
    previous := match s.comp.current with
      | some cur => some cur
      | none => s.comp.previous
    holdDue := none, cadenceDue := none, deadlineDue := none
    presenceDue := some (s.now + 16000 * r.ownPos)
    watch := watchOf r s.identity s.now
    retryDue := some (s.now + 120000000)
    retryFell := none }
  cargo   : t.bus.cargoGrade = .g1
  adopted : t.flagSet .adopted = true
  limp    : t.flagSet .limp = true

theorem enterLimp_entered (s : State) : ∃ r, LimpEntered s s.enterLimp r :=
  ⟨_, adopt_engineStep true _ s, rfl, rfl, rfl, rfl, adopt_comp true _ s, adopt_cargoGrade true _ s,
    adopt_adopted true _ s, adopt_limp _ s⟩

/-- Settles O37, by the number of failures. -/
theorem roundDeadlineFailsRound : Obligations.RoundDeadlineFailsRound := by
  intro s d hdue hstate
  have hruns : s.roundRunning = true := by
    unfold State.roundRunning
    obtain h | h | h := hstate <;> rw [h]
  have hexec : exec .roundDeadline s = .next (s.advanceTo d).roundFailed := by
    have hexec : exec .roundDeadline s = execRoundDeadline s := rfl
    rw [hexec, execRoundDeadline, hdue]
    exact if_pos hruns
  refine ⟨fun hfew => ⟨_, hexec, roundFailed_goesOn (s := s.advanceTo d) hfew⟩, fun hmany => ?third⟩
  case third =>
    rw [roundFailed_limp (s := s.advanceTo d) hmany] at hexec
    obtain ⟨r, hstep, hstatus, hgrade, hpayload, hepoch, hcomp, hcargo, hadopted, hlimp⟩ :=
      enterLimp_entered (s.advanceTo d).noteFailure
    refine ⟨_, r, hexec, ?_⟩
    generalize (s.advanceTo d).noteFailure.enterLimp = t at *
    have hgate : t.gateOpen = true := gateOpen_iff.mpr (.inr (.inl (by rw [hcomp])))
    refine ⟨⟨hstep.now, hstep.chainA, hstep.chainB, hstep.grade, hstep.pending, hstep.bus, hstep.port.1⟩, ?_⟩
    rw [hcomp]
    exact ⟨rfl, rfl, rfl, rfl, rfl, hstatus, hgrade, hpayload, hepoch, hcargo,
      fun c hc => by simp only [State.noteFailure, State.advanceTo_comp, hc],
      fun hnone => by simp only [State.noteFailure, State.advanceTo_comp, hnone],
      rfl, rfl, rfl, hadopted, hlimp, hgate⟩

end Sys2Proof.Machine
end

section
/-! What a placement leads to, and the duties under a roster (R71 to R74, R81, R85, R87). -/

namespace Sys2Proof.Machine

variable {s t u : State} {r : Roster}

/-! ## The result of a placement (R72, R77) -/

/-- The state with a pending roster in CONFIRM (R72). -/
def State.placedAs (r : Roster) (s : State) : State :=
  s.setComp { s.comp with state := .confirm, pendingRoster := some r }

theorem tryPlacement_success (h : s.placementDue = true) (hr : s.placement = .success r) :
    s.tryPlacement = (s.placedAs r).ownConfirm := by
  rw [State.placement] at hr
  rw [State.tryPlacement, if_pos h, hr]
  rfl

theorem tryPlacement_tooLong (h : s.placementDue = true) (hr : s.placement = .tooLong) :
    s.tryPlacement = s.enterLimp := by
  rw [State.placement] at hr
  rw [State.tryPlacement, if_pos h, hr]

theorem tryPlacement_failed (h : s.placementDue = true)
    (hr : s.placement = .conflict ∨ s.placement = .unplaced ∨ s.placement = .overflow) :
    s.tryPlacement = s.roundFailed := by
  rw [State.placement] at hr
  obtain hr | hr | hr := hr <;> rw [State.tryPlacement, if_pos h, hr]

/-- The table after the own confirm of a roster. -/
def State.confirmedTable (r : Roster) (s : State) : List HeardEntry :=
  mapTable s.identity (fun x => { x with confirmed := some r.digest }) s.comp.table

/-- With its own confirm recorded, the station awaits the other HEARD members' (R77). -/
theorem confirmedTable_all (h : TableOk s) (hs : s.comp.state ≠ .idle) :
    allConfirmed r (s.confirmedTable r) = true ↔ ∀ id ∈ r.heardIds, id ≠ s.identity →
      ∃ x ∈ s.comp.table, x.id = id ∧ x.confirmed = some r.digest := by
  have hids : (s.confirmedTable r).map HeardEntry.id = s.comp.table.map HeardEntry.id :=
    mapTable_ids fun x hx => hx
  rw [allConfirmed_iff (by rw [hids]; exact h.distinct)]
  refine forall₂_congr fun id _ => ⟨fun ⟨y, hy, hid, hconfirmed⟩ hother => ?_, fun hconfirmed => ?_⟩
  · obtain ⟨x, hx, ⟨rfl, hown⟩ | ⟨rfl, -⟩⟩ := mem_mapTable hy
    · exact absurd (hid.symm.trans hown) hother
    · exact ⟨y, hx, hid, hconfirmed⟩
  · by_cases hother : id = s.identity
    · obtain ⟨x, hx, hown⟩ := h.own hs
      exact ⟨{ x with confirmed := some r.digest }, List.mem_map.mpr ⟨x, hx, if_pos hown⟩, hown.trans hother.symm, rfl⟩
    · obtain ⟨x, hx, hid, hc⟩ := hconfirmed hother
      exact ⟨x, List.mem_map.mpr ⟨x, hx, if_neg (hid.symm ▸ hother)⟩, hid, hc⟩

/-- A pending roster whose members have all confirmed is adopted with the own confirm (R77). -/
theorem ownConfirm_adopts (hpending : s.comp.pendingRoster = some r)
    (hall : allConfirmed r (s.confirmedTable r) = true) :
    s.ownConfirm = State.adopt false r { s with
      comp := { s.comp with cadenceDue := some (s.now + 320000), table := s.confirmedTable r }
      bus := { s.bus with slot := some (.confirm s.comp.epoch r.digest r.ownPos) } } := by
  rw [State.ownConfirm, hpending]
  dsimp only
  rw [State.checkAdoption]
  have hkept : (State.setComp (State.handIn (.confirm s.comp.epoch r.digest r.ownPos)
      (s.recordConfirm s.identity r.digest))
      { (State.handIn (.confirm s.comp.epoch r.digest r.ownPos) (s.recordConfirm s.identity r.digest)).comp with
        cadenceDue := some (s.now + Config.cadence) }).comp.pendingRoster = some r := hpending
  rw [hkept]
  exact if_pos hall

theorem roundFailed_state (s : State) :
    s.roundFailed.comp.failed = min 255 (s.comp.failed + 1) ∧ s.roundFailed.comp.reason = .roundFailed ∧
      (s.comp.failed < 2 → s.roundFailed.comp.state = .quiet ∧ s.roundFailed.comp.epoch = s.comp.epoch + 1) ∧
      (2 ≤ s.comp.failed → s.roundFailed.comp.state = .limp ∧ s.roundFailed.comp.epoch = s.comp.epoch) := by
  by_cases h : s.comp.failed < 2
  · have hnew := (roundFailed_goesOn h).comp
    rw [hnew]
    exact ⟨by dsimp only; omega, rfl, fun _ => ⟨rfl, rfl⟩, fun h' => absurd h' (not_le.mpr h)⟩
  · rw [roundFailed_limp (not_lt.mp h)]
    obtain ⟨r, hlimp⟩ := enterLimp_entered s.noteFailure
    rw [hlimp.comp]
    exact ⟨rfl, rfl, fun h' => absurd h' h, fun _ => ⟨rfl, rfl⟩⟩

/-- A placement whose conditions hold takes its result. -/
theorem tryPlacement_taken (h : TableOk s) (hs : s.comp.state ≠ .idle) (hdue : s.placementDue = true) :
    PlacementTaken s s.tryPlacement s.placement := by
  refine ⟨fun r hr => ?found, fun hr => ?tooLong, fun hr => ?failed⟩
  case found =>
    rw [tryPlacement_success hdue hr]
    by_cases hall : allConfirmed r (s.confirmedTable r) = true
    · rw [ownConfirm_adopts (s := s.placedAs r) rfl hall, adopt_comp, if_pos ((confirmedTable_all h hs).mp hall)]
      exact ⟨rfl, rfl, rfl, rfl⟩
    · rw [ownConfirm_waits (s := s.placedAs r) rfl (Bool.eq_false_iff.mpr hall),
        if_neg fun h' => hall ((confirmedTable_all h hs).mpr h')]
      exact ⟨rfl, rfl, rfl, fun _ => rfl⟩
  case tooLong =>
    obtain ⟨r, hlimp⟩ := enterLimp_entered s
    rw [tryPlacement_tooLong hdue hr, hlimp.comp]
    exact ⟨rfl, rfl, rfl⟩
  case failed =>
    rw [tryPlacement_failed hdue hr]
    exact roundFailed_state s

/-- A placement takes the engine out of OFFER. -/
theorem PlacementTaken.left (h : PlacementTaken s t s.placement) : t.comp.state ≠ .offer := by
  cases hr : s.placement with
  | success r =>
    have hfound := (h.found r hr).2
    split at hfound
    · rw [hfound.1]; decide
    · rw [hfound.1]; decide
  | tooLong => rw [(h.tooLong hr).1]; decide
  | conflict | unplaced | overflow =>
    obtain ⟨-, -, hfew, hmany⟩ := h.failed (by rw [hr]; simp)
    obtain hf | hf := Nat.lt_or_ge s.comp.failed 2
    · rw [(hfew hf).1]; decide
    · rw [(hmany hf).1]; decide

theorem placementDue_iff : s.placementDue = true ↔
    s.comp.state = .offer ∧ 3 ≤ s.comp.ownSent ∧ s.comp.offerDone = true ∧
      ((∃ x, findEntry s.identity s.comp.table = some x ∧
          s.comp.table.length = x.offer.endA.report.count + x.offer.endB.report.count + 1) ∨
        ∃ d, s.comp.lastEntry = some d ∧ d + 640000 ≤ s.now) := by
  unfold State.placementDue
  rw [Bool.and_eq_true, Bool.and_eq_true, Bool.and_eq_true, Bool.or_eq_true, decide_eq_true_iff, decide_eq_true_iff,
    and_assoc, and_assoc]
  refine and_congr_right fun _ => and_congr_right fun _ => and_congr_right fun _ => or_congr ?_ ?_
  · cases findEntry s.identity s.comp.table <;> simp
  · cases s.comp.lastEntry with
    | none => simp
    | some d =>
      rw [decide_eq_true_iff]
      exact ⟨fun h => ⟨d, rfl, h⟩, fun ⟨_, hd, h⟩ => Option.some.inj hd ▸ h⟩

theorem tryPlacement_not_due (h : ¬ s.placementDue = true) : s.tryPlacement = s := if_neg h

/-- What a placement is judged by is composition, slot and idle bus alone. -/
theorem PlacementTaken.sent {result : PlacementResult} (h : PlacementTaken s t result) (hbus : t.bus.idle = s.bus.idle) :
    PlacementTaken s t.sendWaiting result := by
  have hcomp := sendWaiting_comp t
  refine ⟨fun r hr => ?_, by rw [hcomp]; exact h.tooLong, by rw [hcomp]; exact h.failed⟩
  rw [hcomp]
  refine ⟨(h.found r hr).1, ?_⟩
  have hfound := (h.found r hr).2
  split
  · next hall =>
    rw [if_pos hall] at hfound
    exact hfound
  · next hall =>
    rw [if_neg hall] at hfound
    exact ⟨hfound.1, hfound.2.1, fun hbusy => by
      rw [sendWaiting_busy (hbus.trans hbusy)]
      exact hfound.2.2 hbusy⟩

theorem startFrame_grade (sel : Selection) (s : State) : (s.startFrame sel).grade = s.grade := by
  unfold State.startFrame
  split <;> split <;> rfl

theorem sendWaiting_grade (s : State) : s.sendWaiting.grade = s.grade := by
  have hselect := (select_cargoStep s).grade
  unfold State.sendWaiting State.atIdle
  split
  · dsimp only
    split
    · exact hselect
    · split
      · exact (startFrame_grade _ _).trans hselect
      · exact hselect
  · rfl

theorem exec_lastEntryTimeout {d : Ticks} (hstate : s.comp.state = .offer) (hentry : s.comp.lastEntry = some d) :
    exec .lastEntryTimeout s = .next (s.advanceTo (d + 640000)).tryPlacement.sendWaiting := by
  have hexec : exec .lastEntryTimeout s = execLastEntryTimeout s := rfl
  rw [hexec, execLastEntryTimeout, hentry]
  exact if_pos hstate

/-- The state in OFFER after the completion of an own offer of the own epoch (R33, R50, R71). -/
def State.offered (f : Frame) (s : State) : State :=
  (s.completeOwn f).setComp { s.comp with ownSent := min 255 (s.comp.ownSent + 1), offerDone := true }

theorem offerSent_offered {f : Frame} {e : Epoch} (hs : s.comp.state = .offer) (he : e = s.comp.epoch) :
    (s.completeOwn f).offerSent e = (s.offered f).tryPlacement := by
  have hdone : ((s.completeOwn f).comp.offerDone || decide ((s.completeOwn f).comp.state = .offer)) = true := by
    rw [show (s.completeOwn f).comp.state = .offer from hs, decide_eq_true rfl, Bool.or_true]
  rw [State.offerSent, hdone, if_pos (by exact he)]
  rfl

/-- Settles O36, by the conditions and the result of the placement. -/
theorem placementEndsOffering : Obligations.PlacementEndsOffering := by
  refine ⟨fun s d htable hstate hentry => ?timeout,
    fun s x o own htable hctrl htx ho hstate hepoch hsent hown hid => ?completion⟩
  case timeout =>
    have hexec := exec_lastEntryTimeout hstate hentry
    have hlive : (s.advanceTo (d + 640000)).comp.state ≠ .idle := by
      rw [State.advanceTo_comp, hstate]
      decide
    refine ⟨fun hdone hsent => ⟨_, hexec, ?due⟩, fun hmissing => ⟨_, hexec, ?waits⟩⟩
    case due =>
      have hdue : (s.advanceTo (d + 640000)).placementDue = true :=
        placementDue_iff.mpr ⟨hstate, hsent, hdone, .inr ⟨d, hentry, le_max_right _ _⟩⟩
      have htaken := tryPlacement_taken (htable.congr (t := s.advanceTo (d + 640000)) rfl rfl rfl rfl) hlive hdue
      have hstep := tryPlacement_engineStep (s.advanceTo (d + 640000))
      have hcontroller := sendWaiting_controllerStep (s.advanceTo (d + 640000)).tryPlacement
      have hsend := htaken.sent (by rw [hstep.bus])
      exact ⟨hcontroller.now.trans hstep.now, hsend.left, ⟨hsend.found, hsend.tooLong, hsend.failed⟩,
        hcontroller.chainA.trans hstep.chainA, hcontroller.chainB.trans hstep.chainB, (sendWaiting_grade _).trans hstep.grade,
        hcontroller.pending.trans hstep.pending⟩
    case waits =>
      have hnot : ¬ (s.advanceTo (d + 640000)).placementDue = true := by
        rw [placementDue_iff]
        rintro ⟨-, hthree, hdone, -⟩
        obtain h | h := hmissing
        · exact Bool.false_ne_true (h.symm.trans hdone)
        · exact absurd hthree (not_le.mpr h)
      rw [tryPlacement_not_due hnot]
      exact ⟨(sendWaiting_controllerStep _).now, sendWaiting_comp _⟩
  case completion =>
    have hexec : exec .cleanCompletion s = .next ((s.completeOwn x.frame).offerSent o.epoch) := by
      rw [exec_cleanCompletion htx, ho, State.reportCompletion]
    have hfind : findEntry s.identity s.comp.table = some own := findEntry_eq hown hid htable.distinct
    have hsentNow : (s.offered x.frame).comp.ownSent = min 255 (s.comp.ownSent + 1) := rfl
    rw [offerSent_offered hstate hepoch] at hexec
    refine ⟨fun hfull => ⟨_, hexec, ?full⟩, fun d hopen hentry hearly => ⟨_, hexec, ?early⟩⟩
    case full =>
      have hdue : (s.offered x.frame).placementDue = true :=
        placementDue_iff.mpr ⟨hstate, by omega, rfl, .inl ⟨own, hfind, hfull⟩⟩
      have htaken := tryPlacement_taken (htable.congr (t := s.offered x.frame) rfl rfl rfl rfl)
        (fun h => CompState.noConfusion (hstate.symm.trans h)) hdue
      refine ⟨htaken.left, fun r hr => ?_, htaken.tooLong, htaken.failed⟩
      have hfound := htaken.found r hr
      refine ⟨hfound.1, ?_⟩
      split
      · next hall => exact (if_pos hall).mp hfound.2
      · next hall => exact ((if_neg hall).mp hfound.2).imp_right fun h => h.imp_right fun h _ => h rfl
    case early =>
      have hnot : ¬ (s.offered x.frame).placementDue = true := by
        rw [placementDue_iff]
        rintro ⟨-, -, -, ⟨y, hy, hlength⟩ | ⟨d', hd', hle⟩⟩
        · obtain rfl : own = y := Option.some.inj (hfind.symm.trans hy)
          exact hopen hlength
        · obtain rfl : d = d' := Option.some.inj (hentry.symm.trans hd')
          exact absurd hle (not_le.mpr hearly)
      rw [tryPlacement_not_due hnot]
      rfl

end Sys2Proof.Machine
end

section
/-! The duties under a roster: the LIMP retry, the member watch and the presence schedule (R81, R85, R87). -/

namespace Sys2Proof.Machine

variable {s t u : State} {r : Roster}

theorem presenceInterval_eq (n : Nat) : presenceInterval n =
    if n ≤ 4 then 400000 else if n ≤ 8 then 600000 else if n ≤ 12 then 800000 else 1000000 := rfl

theorem gateOpen_of_duty (hcur : s.comp.current = some r)
    (h : s.comp.state = .settled ∨ s.comp.state = .limp ∨
      (r.status = .limp ∧ (s.comp.state = .quiet ∨ s.comp.state = .offer ∨ s.comp.state = .confirm))) :
    s.gateOpen = true := by
  rw [gateOpen_iff]
  refine h.imp_right fun h => h.imp_right fun h => ⟨?_, h.2⟩
  rw [State.currentIsLimp, hcur]
  exact decide_eq_true h.1

/-- A round under a limp roster keeps the roster, the presence schedule and the watch (R63). -/
theorem NewRound.background {e : Epoch} {reason : Reason} (h : NewRound s t e reason) (hcur : s.comp.current = some r)
    (hlimp : r.status = .limp) :
    t.roundKind = .background ∧ t.gateOpen = true ∧ t.comp.current = some r ∧
      t.comp.presenceDue = s.comp.presenceDue ∧ t.comp.watch = s.comp.watch := by
  have hbackground : s.currentIsLimp = true := by
    rw [State.currentIsLimp, hcur]
    exact decide_eq_true hlimp
  have hcurrent : t.comp.current = some r := by
    rw [h.comp]
    exact hcur
  refine ⟨by rw [h.roundKind, if_pos hbackground], gateOpen_of_duty hcurrent (.inr (.inr ⟨hlimp, .inl ?_⟩)), hcurrent,
    ?_, ?_⟩
  · rw [h.comp]
  · rw [h.comp]
    exact if_pos hbackground
  · rw [h.comp]
    exact if_pos hbackground

theorem exec_limpRetry_limp {d : Ticks} (hs : s.comp.state = .limp) (hdue : s.comp.retryDue = some d) :
    exec .limpRetry s = .next (s.advanceTo d).retry := by
  have hexec : exec .limpRetry s = execLimpRetry s := rfl
  rw [hexec, execLimpRetry, if_pos hs, hdue]

/-- In a round the expiry is taken that fell together with the trigger of the round (R81). -/
theorem exec_limpRetry_quiet (hs : s.comp.state = .quiet) :
    exec .limpRetry s = if s.comp.retryFell = some s.now then .next s.retry else .next s := by
  have hexec : exec .limpRetry s = execLimpRetry s := rfl
  have hruns : s.roundRunning = true := by rw [State.roundRunning, hs]
  rw [hexec, execLimpRetry, if_neg (by rw [hs]; decide)]
  exact if_congr (by rw [hruns]; simp) rfl rfl

theorem exec_memberLost {id : Identity} {w : Watched} (hgate : s.gateOpen = true) (hcur : s.comp.current = some r)
    (hw : s.comp.watch.find? (fun x => x.id = id) = some w) :
    exec (.memberLost id) s =
      .next (((s.advanceTo (w.heard + 3 * presenceInterval r.n)).setAside id).trigger .memberLost) := by
  have hexec : exec (.memberLost id) s = execMemberLost id s := rfl
  rw [hexec, execMemberLost, hw]
  dsimp only
  rw [State.dutyHeld, if_pos hgate, State.interval, hcur]

theorem exec_presencePoint {d : Ticks} (hgate : s.gateOpen = true) (hcur : s.comp.current = some r)
    (hdue : s.comp.presenceDue = some d) :
    exec .presenceSchedulePoint s = .next ((s.advanceTo d).buildPresence r d).sendWaiting := by
  have hexec : exec .presenceSchedulePoint s = execPresenceSchedulePoint s := rfl
  rw [hexec, execPresenceSchedulePoint, hdue, hcur]
  exact if_pos hgate

/-- Settles O39, duty by duty. -/
theorem dutyUnderRoster : Obligations.DutyUnderRoster := by
  refine ⟨fun s d r hs hdue hcur hlimp => ?retry, fun s u d e reason hs hdue hnew => ?fell,
    fun s r id w hs hcur hw => ?lost, fun s d r hduty hcur hdue hbusy => ?presence⟩
  case retry =>
    have hround := retry_newRound (s := s.advanceTo d) (.inl hs)
    exact ⟨_, exec_limpRetry_limp hs hdue, hround,
      hround.background (s := (s.advanceTo d).setComp (s.advanceTo d).comp.stopRetry) hcur hlimp⟩
  case fell =>
    have hquiet : u.comp.state = .quiet := by rw [hnew.comp]
    have hexec := exec_limpRetry_quiet hquiet
    have hnow : u.now = s.now := by rw [hnew.rest]
    have hfell := hnew.retryFell hdue
    rw [hnow] at hfell
    refine ⟨fun hle => ?_, fun hlt => ?_⟩
    · rw [hfell, if_pos hle, hnow, if_pos rfl] at hexec
      have hround := retry_newRound (s := u) (.inr hquiet)
      have hepoch : u.comp.epoch = e := by rw [hnew.comp]
      have hdueNone : u.comp.retryDue = none := by rw [hnew.comp]
      have hstopped : u.comp.stopRetry = { u.comp with retryFell := none } := by
        simp only [Comp.stopRetry, hdueNone]
      rw [hepoch, hstopped] at hround
      exact ⟨_, hexec, hround⟩
    · rw [hfell, if_neg (not_le.mpr hlt)] at hexec
      exact hexec
  case lost =>
    have hgate : s.gateOpen = true := gateOpen_of_duty hcur (hs.imp_right .inl)
    refine ⟨_, exec_memberLost hgate hcur hw, ?_⟩
    rw [← presenceInterval_eq]
    exact triggers_of_takes (r := .memberLost)
      (s := (s.advanceTo (w.heard + 3 * presenceInterval r.n)).setAside id) (hs.imp_right .inl) (by decide)
  case presence =>
    rw [exec_presencePoint (gateOpen_of_duty hcur hduty) hcur hdue, sendWaiting_busy (by exact hbusy),
      ← presenceInterval_eq]
    rfl

end Sys2Proof.Machine
end

section
/-! Adoption and its rename pass (R82, R136 to R139). -/

namespace Sys2Proof.Machine

variable {s t : State} {previous : Option Roster} {r : Roster} {x : TxEntry} {before after : List TxEntry}

/-! ## One entry of the pass -/

/-- What the review of one entry leaves of it, and what it does to the queue: the entry in its place, or its outcome. -/
theorem renameOne_split (hq : s.cargo.queue = before ++ x :: after)
    (hnodup : (s.cargo.queue.map TxEntry.ticket).Nodup) (hroom : s.cargo.outcomes.length < 32) :
    (∃ z, renamed previous r x = some z ∧ departed previous r x = none ∧ z.ticket = x.ticket ∧
      State.renameOne previous r s x = { s with cargo := { s.cargo with queue := before ++ z :: after } }) ∨
    ∃ o, renamed previous r x = none ∧ departed previous r x = some o ∧
      State.renameOne previous r s x = { s with
        cargo := { s.cargo with queue := before ++ after, outcomes := s.cargo.outcomes ++ [o] }
        port := { s.port with flags := s.port.flags ||| 0x0040#15 } } := by
  unfold renamed departed State.renameOne
  by_cases hflight : x.inFlight = true
  · rw [if_pos hflight, if_pos hflight, if_pos hflight]
    exact .inl ⟨_, rfl, rfl, rfl, mapEntry_split _ hq hnodup⟩
  · rw [if_neg hflight, if_neg hflight, if_neg hflight]
    cases hreview : reviewEntry previous r x with
    | ok y =>
      obtain ⟨d, hy⟩ := reviewEntry_ok hreview
      exact .inl ⟨y, rfl, rfl, by rw [hy], mapEntry_split _ hq hnodup⟩
    | error k => exact .inr ⟨_, rfl, rfl, removeEntry_split hq hnodup hroom⟩

/-! ## The whole pass -/

/-- The state after the review of the entries behind those in `before` (R136). -/
def State.reviewed (previous : Option Roster) (r : Roster) (before entries : List TxEntry) (s : State) : State :=
  { s with
    cargo := { s.cargo with
      queue := before ++ entries.filterMap (renamed previous r)
      outcomes := s.cargo.outcomes ++ entries.filterMap (departed previous r) }
    port := { s.port with
      flags := s.port.flags ||| (if entries.filterMap (departed previous r) = [] then 0 else 0x0040#15) } }

theorem foldl_renameOne (entries : List TxEntry) (hq : s.cargo.queue = before ++ entries)
    (hnodup : (s.cargo.queue.map TxEntry.ticket).Nodup)
    (hroom : s.cargo.outcomes.length + entries.length ≤ 32) :
    entries.foldl (State.renameOne previous r) s = s.reviewed previous r before entries := by
  induction entries generalizing s before with
  | nil =>
    rw [List.append_nil] at hq
    simp only [State.reviewed, List.foldl_nil, List.filterMap_nil, List.append_nil, if_true, BitVec.ofNat_eq_ofNat,
      BitVec.or_zero, ← hq]
  | cons x xs ih =>
    rw [List.length_cons] at hroom
    obtain ⟨z, hz, hd, hticket, hone⟩ | ⟨o, hz, hd, hone⟩ :=
      renameOne_split (previous := previous) (r := r) hq hnodup (by omega)
    · rw [List.foldl_cons, hone, ih (before := before ++ [z]) (by simp) ?nodup (by dsimp only; omega)]
      case nodup =>
        rw [hq] at hnodup
        simpa only [List.map_append, List.map_cons, hticket] using hnodup
      simp only [State.reviewed, List.filterMap_cons_some hz, List.filterMap_cons_none hd, List.append_assoc,
        List.singleton_append]
    · rw [List.foldl_cons, hone, ih (before := before) rfl ?nodup (by
        simp only [List.length_append, List.length_singleton]
        omega)]
      case nodup =>
        rw [hq, List.map_append, List.map_cons, List.nodup_middle] at hnodup
        simpa only [List.map_append] using (List.nodup_cons.mp hnodup).2
      have hflags (b : BitVec 15) (c : Bool) :
          (b ||| 0x0040#15) ||| (if c then 0 else 0x0040#15) = b ||| 0x0040#15 := by
        cases c
        · exact (BitVec.or_assoc _ _ _).trans (congrArg _ BitVec.or_self)
        · exact BitVec.or_zero
      simp only [State.reviewed, List.filterMap_cons_none hz, List.filterMap_cons_some hd, List.append_assoc,
        List.singleton_append, reduceCtorEq, if_false]
      have hpost := hflags s.port.flags (decide (xs.filterMap (departed previous r) = []))
      simp only [decide_eq_true_eq] at hpost
      rw [hpost]

/-! ## Adoption -/

/-- The state whose rosters are those of an adoption, before its rename pass (R82, R136). -/
def State.adopting (r : Roster) (s : State) : State :=
  s.setComp { s.comp with
    previous := match s.comp.current with
      | some cur => some cur
      | none => s.comp.previous
    current := some r
    pendingRoster := none }

theorem adopting_renamePass (hnodup : (s.cargo.queue.map TxEntry.ticket).Nodup)
    (hroom : s.cargo.outcomes.length + s.cargo.queue.length ≤ 32) :
    (s.adopting r).renamePass =
      (s.adopting r).reviewed (s.adopting r).comp.previous r [] s.cargo.queue := by
  rw [State.renamePass, show (s.adopting r).comp.current = some r from rfl]
  exact foldl_renameOne s.cargo.queue (s := s.adopting r) rfl hnodup hroom

theorem notifyIf_eq (c : Bool) (n : Notice) (s : State) :
    s.notifyIf c n = s.setPort { s.port with flags := s.port.flags ||| if c then n.flag else 0 } := by
  cases c
  · exact (congrArg (fun b => s.setPort { s.port with flags := b }) (BitVec.or_zero (x := s.port.flags))).symm
  · rfl

/-- The flags of an adoption, over those that its rename pass has set (R82). -/
theorem adoptionNotices_eq {v : State} {flags gone : BitVec 15} (h : v.port.flags = flags ||| gone) (conflict limp : Bool) :
    ((v.notify .adopted).notifyIf conflict .cabConflict).notifyIf limp .limp =
      v.setPort { v.port with flags :=
        flags ||| 0x0001#15 ||| gone ||| (if conflict then 0x0400#15 else 0) ||| (if limp then 0x0002#15 else 0) } := by
  rw [BitVec.or_assoc flags, BitVec.or_comm 0x0001#15, ← BitVec.or_assoc flags, ← h, notifyIf_eq, notifyIf_eq]
  rfl

/-- Settles O38, from the rename pass to the flags. -/
theorem adoptionTakesRoster : Obligations.AdoptionTakesRoster := by
  intro s limp r hnodup hroom previous gone
  have hpass := adopting_renamePass (r := r) hnodup hroom
  have hadopt : s.adopt limp r =
      let u := (s.adopting r).reviewed (s.adopting r).comp.previous r [] s.cargo.queue
      let v := (u.setBus { u.bus with cargoGrade := r.jointGrade }).setComp { u.comp with
        state := if limp then .limp else .settled
        holdDue := none, cadenceDue := none, deadlineDue := none
        presenceDue := some (u.now + Config.presenceStagger * r.ownPos)
        watch := watchOf r u.identity u.now
        failed := if limp then u.comp.failed else 0
        retryDue := if limp then some (u.now + Config.limpRetry) else none
        retryFell := none }
      ((v.notify .adopted).notifyIf r.cabConflict .cabConflict).notifyIf limp .limp := by
    rw [← hpass]
    rfl
  rw [hadopt]
  dsimp only
  rw [adoptionNotices_eq (flags := s.port.flags) rfl]
  rfl

end Sys2Proof.Machine
end

section
/-! What the composition engine makes of a received offer, confirm and presence (R54, R55, R58 to R61, R73 to R76, R83,
R84, R86). -/

namespace Sys2Proof.Machine

variable {s t : State} {r : Roster} {src : Identity} {o : OfferFields} {x : HeardEntry} {before after : List HeardEntry}
  {e : Epoch} {d : Digest} {p : Nat}

theorem judgeEpoch_self (e : Epoch) : judgeEpoch e e = .equal := by
  rw [judgeEpoch, sub_self]
  rfl

/-- A station is a member where the current roster hears it (section 4.9). -/
theorem isMember_iff (hcur : s.comp.current = some r) (hsrc : src ≠ s.identity) :
    s.isMember src = true ↔ src ∈ r.heardIds := by
  rw [State.isMember, hcur]
  simp [Roster.isMember, hsrc]

theorem answerConfirm_eq (hcur : s.comp.current = some r) :
    s.answerConfirm = { s with bus := { s.bus with slot := some (.confirm s.comp.epoch r.digest r.ownPos) } } := by
  rw [State.answerConfirm, hcur]
  rfl

/-! ## Taking an offer into the table (R58, R59) -/

theorem mapTable_split (f : HeardEntry → HeardEntry) (hid : x.id = src)
    (hnodup : ((before ++ x :: after).map HeardEntry.id).Nodup) :
    mapTable src f (before ++ x :: after) = before ++ f x :: after := by
  rw [List.map_append, List.map_cons, List.nodup_middle, List.nodup_cons, ← List.map_append] at hnodup
  have hkeep {l : List HeardEntry} (hl : l ⊆ before ++ after) :
      l.map (fun y => if y.id = src then f y else y) = l :=
    (List.map_congr_left fun y hy => if_neg fun hy' =>
      hnodup.1 (List.mem_map.mpr ⟨y, hl hy, hy'.trans hid.symm⟩)).trans (List.map_id l)
  rw [mapTable, List.map_append, List.map_cons, if_pos hid, hkeep (List.subset_append_left _ _),
    hkeep (List.subset_append_right _ _)]

theorem takeOffer_new (h : ∀ x ∈ s.comp.table, x.id ≠ src) (hroom : s.comp.table.length < 16) :
    s.takeOffer src o = ({ s with comp := { s.comp with
      table := s.comp.table ++ [⟨src, o, none⟩], lastEntry := some s.now } }, .new) := by
  rw [State.takeOffer, findEntry_eq_none_iff.mpr h]
  exact if_pos hroom

theorem takeOffer_full (h : ∀ x ∈ s.comp.table, x.id ≠ src) (hfull : 16 ≤ s.comp.table.length) :
    s.takeOffer src o = ({ s with comp := { s.comp with overflow := true } }, .notStored) := by
  rw [State.takeOffer, findEntry_eq_none_iff.mpr h]
  exact if_neg (not_lt.mpr hfull)

theorem takeOffer_known (htable : s.comp.table = before ++ x :: after) (hid : x.id = src)
    (hnodup : (s.comp.table.map HeardEntry.id).Nodup) :
    s.takeOffer src o = ({ s with comp := { s.comp with table := before ++ ⟨src, o, none⟩ :: after } },
      if x.offer = o then .same else .changed) := by
  have hx : x ∈ s.comp.table := by
    rw [htable]
    exact List.mem_append_right _ List.mem_cons_self
  rw [State.takeOffer, findEntry_eq hx hid hnodup]
  rw [htable] at hnodup
  dsimp only
  rw [htable, mapTable_split _ hid hnodup]
  rfl

/-- Taking an offer touches table, instant of last entry and overflow mark alone. -/
theorem takeOffer_shape (src : Identity) (o : OfferFields) (s : State) :
    ∃ table lastEntry overflow, (s.takeOffer src o).1 = { s with comp := { s.comp with
      table := table, lastEntry := lastEntry, overflow := overflow } } := by
  unfold State.takeOffer
  split
  · exact ⟨_, _, _, rfl⟩
  · split
    · exact ⟨_, _, _, rfl⟩
    · exact ⟨_, _, _, rfl⟩

theorem receiveOffer_equal (he : o.epoch = s.comp.epoch) :
    s.receiveOffer src o = (s.takeOffer src o).1.afterOffer src (s.takeOffer src o).2 := by
  rw [State.receiveOffer, he, judgeEpoch_self]

/-- A newer offer: the epoch adopted, and the offer taken into the new table (R54, R61). -/
theorem receiveOffer_newer (hnewer : judgeEpoch o.epoch s.comp.epoch = .newer) (hsrc : src ≠ s.identity) :
    ∃ u, NewRound s u o.epoch .newerEpoch ∧
      s.receiveOffer src o = { u with comp := { u.comp with
        table := u.comp.table ++ [⟨src, o, none⟩], lastEntry := some s.now } } := by
  have hnew : NewRound s (s.adoptEpoch o.epoch) o.epoch .newerEpoch := changeEpoch_newRound _ _ s
  refine ⟨s.adoptEpoch o.epoch, hnew, ?_⟩
  rw [State.receiveOffer, hnewer]
  dsimp only
  rw [takeOffer_new (by rw [hnew.table]; simpa using hsrc.symm) (by rw [hnew.table]; simp)]
  have hnow : (s.adoptEpoch o.epoch).now = s.now := by rw [hnew.rest]
  rw [hnow]

/-! ## What the state makes of it -/

theorem afterOffer_quiet {result : TableResult} (hs : s.comp.state = .quiet) : s.afterOffer src result = s := by
  rw [State.afterOffer, hs]

theorem afterOffer_offer {result : TableResult} (hs : s.comp.state = .offer) :
    s.afterOffer src result = if result = .new then s.tryPlacement else s := by
  rw [State.afterOffer, hs]

theorem afterOffer_confirm {result : TableResult} (hs : s.comp.state = .confirm) :
    s.afterOffer src result = if result = .same then s else s.enteringOffer := by
  rw [State.afterOffer, hs, ← enterOffer_eq]

theorem afterOffer_roster {result : TableResult} (hs : s.comp.state = .settled ∨ s.comp.state = .limp) :
    s.afterOffer src result =
      if s.isMember src then s.answerConfirm
      else if result = .new ∨ result = .notStored then s.trigger .strangerOffer
      else s := by
  obtain hs | hs := hs <;> rw [State.afterOffer, hs]

/-- Settles O40, by the judgement and the state. -/
theorem offerReceivedByEpoch : Obligations.OfferReceivedByEpoch := by
  refine ⟨fun s src o => ⟨takeOffer_new, takeOffer_full, fun before x after => takeOffer_known⟩,
    fun s src o => receiveOffer_newer, fun s src o hstale => receiveOffer_stale src hstale, fun s src o he hsrc => ?equal⟩
  obtain ⟨table, lastEntry, overflow, htaken⟩ := takeOffer_shape src o s
  rw [receiveOffer_equal he]
  dsimp only
  generalize (s.takeOffer src o).2 = result
  generalize (s.takeOffer src o).1 = taken at htaken ⊢
  have hstate : taken.comp.state = s.comp.state := by rw [htaken]
  have hcurrent : taken.comp.current = s.comp.current := by rw [htaken]
  have hidentity : taken.identity = s.identity := by rw [htaken]; rfl
  refine ⟨fun hs => ?quiet, fun hs => ⟨fun hmissing => ?early, fun own htable hown hid hnew hsent hdone hfull => ?placed⟩,
    fun hs => ⟨fun hsame => ?same, fun hother => ?changed⟩, fun r hs hcur => ?roster⟩
  case quiet => exact afterOffer_quiet (hstate.trans hs)
  case early =>
    rw [afterOffer_offer (hstate.trans hs)]
    split
    · next hnew =>
      refine tryPlacement_not_due fun hdue => ?_
      obtain ⟨-, hsent, hdone, -⟩ := placementDue_iff.mp hdue
      rw [htaken] at hsent hdone
      obtain h | h | h := hmissing
      · exact h hnew
      · exact absurd hsent (not_le.mpr h)
      · exact Bool.false_ne_true (h.symm.trans hdone)
    · rfl
  case placed =>
    rw [afterOffer_offer (hstate.trans hs), if_pos hnew]
    refine tryPlacement_taken htable (by rw [hstate, hs]; decide) (placementDue_iff.mpr ⟨hstate.trans hs, ?_, ?_, .inl
      ⟨own, findEntry_eq hown (hid.trans hidentity.symm) htable.distinct, hfull⟩⟩)
    · rw [htaken]
      exact hsent
    · rw [htaken]
      exact hdone
  case same => rw [afterOffer_confirm (hstate.trans hs), if_pos hsame]
  case changed => rw [afterOffer_confirm (hstate.trans hs), if_neg hother]
  case roster =>
    have hcur' : taken.comp.current = some r := hcurrent.trans hcur
    have hs' : taken.comp.state = .settled ∨ taken.comp.state = .limp := by rwa [hstate]
    have hmember := isMember_iff hcur' (src := src) (by rwa [hidentity])
    rw [afterOffer_roster hs']
    refine ⟨fun hin => ?_, fun hout hnews => ?_, fun hout hold => ?_⟩
    · rw [if_pos (hmember.mpr hin), answerConfirm_eq hcur', htaken]
    · rw [if_neg (mt hmember.mp hout), if_pos hnews]
      have hepoch : taken.comp.epoch = s.comp.epoch := by rw [htaken]
      rw [← hepoch]
      exact triggers_of_takes (hs'.imp_right .inl) (by decide)
    · rw [if_neg (mt hmember.mp hout), if_neg hold]

/-! ## Confirms (R60, R76, R77, R83, R84) -/

/-- The state after the record of a sender's confirmed digest, or after it is cleared (R60, R76). -/
def State.recording (src : Identity) (confirmed : Option Digest) (s : State) : State :=
  { s with comp := { s.comp with table := mapTable src (fun x => { x with confirmed := confirmed }) s.comp.table } }

theorem mapTable_mapTable {f g : HeardEntry → HeardEntry} (hg : ∀ x, (g x).id = x.id) (table : List HeardEntry) :
    mapTable src f (mapTable src g table) = mapTable src (fun x => f (g x)) table := by
  unfold mapTable
  rw [List.map_map]
  refine List.map_congr_left fun x _ => ?_
  simp only [Function.comp]
  by_cases hx : x.id = src
  · rw [if_pos hx, if_pos ((hg x).trans hx), if_pos hx]
  · rw [if_neg hx, if_neg hx, if_neg hx]

theorem recording_recording (c c' : Option Digest) (s : State) :
    (s.recording src c).recording src c' = s.recording src c' :=
  congrArg (fun table => { s with comp := { s.comp with table := table } })
    (mapTable_mapTable (src := src) (f := fun x => { x with confirmed := c' })
      (g := fun x => { x with confirmed := c }) (fun _ => rfl) s.comp.table)

theorem recording_ids (c : Option Digest) (s : State) :
    (s.recording src c).comp.table.map HeardEntry.id = s.comp.table.map HeardEntry.id := mapTable_ids fun _ h => h

theorem receiveConfirm_equal (he : e = s.comp.epoch) :
    s.receiveConfirm src e d p =
      (s.recording src (some d)).afterConfirm src d p (findEntry src s.comp.table) := by
  rw [State.receiveConfirm, he, judgeEpoch_self]
  rfl

theorem receiveConfirm_discarded
    (h : judgeEpoch e s.comp.epoch = .older ∨ judgeEpoch e s.comp.epoch = .opposite) :
    s.receiveConfirm src e d p = s := by
  obtain h | h := h <;> rw [State.receiveConfirm, h]

theorem afterConfirm_noted {b : Option HeardEntry} (hs : s.comp.state = .quiet ∨ s.comp.state = .offer) :
    s.afterConfirm src d p b = s := by
  obtain hs | hs := hs <;> rw [State.afterConfirm, hs]

theorem afterConfirm_confirm {b : Option HeardEntry} (hs : s.comp.state = .confirm)
    (hpending : s.comp.pendingRoster = some r) :
    s.afterConfirm src d p b =
      if r.isMember s.identity src then
        if d = r.digest then
          if r.posOf src = some p then s.checkAdoption else (s.clearConfirm src).disagree
        else s.disagree
      else s := by
  rw [State.afterConfirm, hs]
  dsimp only
  rw [hpending]

theorem afterConfirm_roster {b : Option HeardEntry} (hs : s.comp.state = .settled ∨ s.comp.state = .limp) :
    s.afterConfirm src d p b =
      if s.isMember src then
        if b.bind HeardEntry.confirmed = s.comp.current.map Roster.digest then s else s.answerConfirm
      else if b.isNone then s.trigger .strangerOffer
      else s := by
  obtain hs | hs := hs <;> rw [State.afterConfirm, hs]

theorem checkAdoption_eq (hpending : s.comp.pendingRoster = some r) :
    s.checkAdoption = if allConfirmed r s.comp.table then s.adopt false r else s := by
  rw [State.checkAdoption, hpending]

/-- A first disagreement gives up the pending roster (R76). -/
theorem disagree_first (h : s.comp.disagreements = 0) :
    s.disagree = State.enteringOffer { s with comp := { s.comp with disagreements := 1 } } := by
  rw [State.disagree, h]
  exact enterOffer_eq _

theorem disagree_further (h : 1 ≤ s.comp.disagreements) :
    s.disagree = State.roundFailed { s with comp := { s.comp with
      disagreements := min 2 (s.comp.disagreements + 1) } } := by
  rw [State.disagree]
  exact if_neg (by simp only [State.setComp_comp]; omega)

/-- A confirm that does not agree leaves its digest recorded where it differs, and none where the position does (R76). -/
theorem afterConfirm_disagrees {b : Option HeardEntry} (hs : s.comp.state = .confirm)
    (hpending : s.comp.pendingRoster = some r) (hmember : r.isMember s.identity src = true)
    (hdiffers : d ≠ r.digest ∨ r.posOf src ≠ some p) :
    (s.recording src (some d)).afterConfirm src d p b =
      (s.recording src (if d = r.digest then none else some d)).disagree := by
  rw [afterConfirm_confirm (s := s.recording src (some d)) hs hpending]
  refine (if_pos hmember).trans ?_
  by_cases hd : d = r.digest
  · rw [if_pos hd, if_neg (hdiffers.resolve_left fun h => h hd), if_pos hd, ← recording_recording (some d) none s]
    rfl
  · rw [if_neg hd, if_neg hd]

/-- Settles O41, by the judgement and the state. -/
theorem confirmReceivedByEpoch : Obligations.ConfirmReceivedByEpoch := by
  intro s src e d p hnodup hsrc recording recorded
  have hrecorded : recorded = s.recording src (some d) := rfl
  refine ⟨fun hnewer => ?newer, receiveConfirm_discarded, fun he => ?equal⟩
  case newer =>
    rw [State.receiveConfirm, hnewer]
    exact changeEpoch_newRound _ _ s
  case equal =>
    rw [receiveConfirm_equal he]
    refine ⟨fun hs => ?noted, fun r hs hpending => ?confirm, fun r hs hcur => ?roster⟩
    case noted => exact afterConfirm_noted hs
    case confirm =>
      have hmember : r.isMember s.identity src = true ↔ src ∈ r.heardIds := by simp [Roster.isMember, hsrc]
      refine ⟨fun hout => ?outside, fun hin hd hp => ?agrees, fun hin hdiffers => ?disagrees⟩
      case outside =>
        rw [afterConfirm_confirm (s := s.recording src (some d)) hs hpending]
        exact if_neg (mt hmember.mp hout)
      case agrees =>
        have hchecked : (s.recording src (some d)).afterConfirm src d p (findEntry src s.comp.table) =
            if allConfirmed r recorded.comp.table then recorded.adopt false r else recorded := by
          rw [afterConfirm_confirm (s := s.recording src (some d)) hs hpending]
          refine (if_pos (hmember.mpr hin)).trans ?_
          rw [if_pos hd, if_pos hp]
          exact checkAdoption_eq hpending
        have hall := allConfirmed_iff (r := r) (table := recorded.comp.table) (by
          rw [hrecorded, recording_ids]
          exact hnodup)
        rw [hchecked]
        exact ⟨fun h => if_pos (hall.mpr h), fun h => if_neg (mt hall.mp h)⟩
      case disagrees =>
        intro kept
        rw [afterConfirm_disagrees hs hpending (hmember.mpr hin) hdiffers]
        refine ⟨fun hfirst => disagree_first hfirst, fun hfurther hfew => ?fails, fun hfurther hmany => ?limp⟩
        all_goals rw [disagree_further (by exact hfurther)]
        case fails =>
          obtain ⟨hcomp, htable, hrest⟩ := roundFailed_goesOn
            (s := { s with comp := { kept with disagreements := min 2 (s.comp.disagreements + 1) } }) hfew
          exact ⟨hcomp, htable, hrest⟩
        case limp =>
          obtain ⟨hfailed, -, -, hlimp⟩ := roundFailed_state
            { s with comp := { kept with disagreements := min 2 (s.comp.disagreements + 1) } }
          exact ⟨(hlimp hmany).1, (hlimp hmany).2, hfailed⟩
    case roster =>
      intro held
      have hmember := isMember_iff (s := s.recording src (some d)) hcur (src := src) hsrc
      rw [afterConfirm_roster (s := s.recording src (some d)) hs]
      have hheld : (findEntry src s.comp.table).bind HeardEntry.confirmed =
          (s.recording src (some d)).comp.current.map Roster.digest ↔ held := by
        rw [show (s.recording src (some d)).comp.current = some r from hcur]
        refine ⟨fun h => ?_, fun ⟨x, hx, hid, hconfirmed⟩ => ?_⟩
        · obtain ⟨x, hfind, hconfirmed⟩ := Option.bind_eq_some_iff.mp h
          obtain ⟨hx, hid⟩ := findEntry_some hfind
          exact ⟨x, hx, hid, hconfirmed⟩
        · rw [findEntry_eq hx hid hnodup]
          exact hconfirmed
      refine ⟨fun hin hh => ?_, fun hin hh => ?_, fun hout hknown => ?_, fun hout hnone => ?_⟩
      · rw [if_pos (hmember.mpr hin), if_pos (hheld.mpr hh), hrecorded]
      · rw [if_pos (hmember.mpr hin), if_neg (mt hheld.mp hh), answerConfirm_eq (s := s.recording src (some d)) hcur]
        rfl
      · obtain ⟨x, hx, hid⟩ := hknown
        rw [if_neg (mt hmember.mp hout), findEntry_eq hx hid hnodup]
        rfl
      · rw [if_neg (mt hmember.mp hout), findEntry_eq_none_iff.mpr hnone]
        obtain ⟨hcomp, htable, hrest⟩ := triggers_of_takes (s := s.recording src (some d)) (r := .strangerOffer)
          (hs.imp_right .inl) (by decide)
        exact ⟨hcomp, htable, hrest⟩

/-! ## Presences (R86) -/

theorem receivePresence_current (hnewer : judgeEpoch e s.comp.epoch ≠ .newer) (hcur : s.comp.current = some r) :
    s.receivePresence src e d = if e = r.epoch then s.checkPresence src d r else s := by
  rw [State.receivePresence, if_neg hnewer, hcur]

/-- Settles O42, by the judgement and the duty. -/
theorem presenceReceivedByEpoch : Obligations.PresenceReceivedByEpoch := by
  intro s src e d hsrc
  refine ⟨fun hnewer => ?newer, fun hnewer => ⟨fun hnone => ?none, fun r hcur => ?current⟩⟩
  case newer =>
    rw [State.receivePresence, if_pos hnewer]
    exact changeEpoch_newRound _ _ s
  case none => rw [State.receivePresence, if_neg hnewer, hnone]
  case current =>
    intro round duty
    have hmember := isMember_iff hcur hsrc
    have hgate (hduty : duty) : s.dutyHeld = true :=
      gateOpen_of_duty hcur (hduty.imp_right fun h => h.imp_right fun h => ⟨h.2, h.1⟩)
    rw [receivePresence_current hnewer hcur]
    refine ⟨fun he => if_neg he, fun he hduty hin hsame => ?_, fun he hin hdiffers hs => ?_, fun he hduty hout => ?_,
      fun he hround hfull => ?_⟩
    all_goals rw [if_pos he, State.checkPresence]
    · rw [if_pos (hgate hduty), if_pos (hmember.mpr hin), if_neg fun h => hsame.elim h.1 fun h' => h' h.2]
    · rw [if_pos (hgate (.inl hs)), if_pos (hmember.mpr hin), if_pos ⟨hdiffers, hs⟩]
      exact triggers_of_takes (.inl hs) (by decide)
    · rw [if_pos (hgate hduty), if_neg (mt hmember.mp hout)]
      rfl
    · refine if_neg fun hduty => ?_
      obtain h | h | ⟨hlimp, -⟩ := gateOpen_iff.mp hduty
      · obtain h' | h' | h' := hround <;> rw [h] at h' <;> cases h'
      · obtain h' | h' | h' := hround <;> rw [h] at h' <;> cases h'
      · rw [State.currentIsLimp, hcur] at hlimp
        exact hfull (of_decide_eq_true hlimp)

end Sys2Proof.Machine
end

section
/-! Grade windows, lifetimes, the rename review, and the reset state (R116 to R118, R132, R133, R137 to R139, R165). -/

namespace Sys2Proof.Machine

variable {s t : State} {g : GradeMonitor} {cur : Roster} {previous : Option Roster}

/-! ## The judgement of a window (R117) -/

theorem Grade.code_inj {c c' : Grade} (h : c.code = c'.code) : c = c' := by
  cases c <;> cases c' <;> simp [Grade.code] at h ⊢

theorem Grade.down_eq {c g : Grade} (h : c.code + 1 = g.code) : g.down = c := by
  cases c <;> cases g <;> simp [Grade.code, Grade.down] at h ⊢

theorem Grade.up_eq {c g : Grade} (h : c.code = g.code + 1) : g.up = c := by
  cases c <;> cases g <;> simp [Grade.code, Grade.up] at h ⊢

theorem endWindow_clean (t : Ticks) (herrors : g.errors ≤ 1) (hrun : g.upRun < 29) :
    g.endWindow t = { g with upRun := g.upRun + 1, errors := 0, windowDue := some (t + 4000000) } := by
  have hceiling : g.judgedCeiling = g.ceiling := by
    rw [GradeMonitor.judgedCeiling, if_neg (by omega), if_neg (by omega), if_neg (by omega)]
  have hjudged : g.judgedRun = g.upRun + 1 := by
    rw [GradeMonitor.judgedRun, if_neg (by omega), if_neg (by omega)]
  rw [GradeMonitor.endWindow, hceiling, hjudged]
  rfl

/-- The thirtieth clean window in a row ends the up-run, and raises a ceiling below its limit. -/
theorem endWindow_thirtieth (t : Ticks) (herrors : g.errors ≤ 1) (hrun : g.upRun = 29) :
    g.endWindow t = { g with
      ceiling := if g.ceiling.code < g.limit.code then g.ceiling.up else g.ceiling
      upRun := 0, errors := 0, windowDue := some (t + 4000000) } := by
  have hceiling : g.judgedCeiling = if g.ceiling.code < g.limit.code then g.ceiling.up else g.ceiling := by
    rw [GradeMonitor.judgedCeiling, if_neg (by omega), if_neg (by omega), if_pos (by omega)]
  have hjudged : g.judgedRun = 0 := by
    rw [GradeMonitor.judgedRun, if_neg (by omega), if_pos (by omega)]
  rw [GradeMonitor.endWindow, hceiling, hjudged]
  rfl

theorem endWindow_some (t : Ticks) (hmore : 2 ≤ g.errors) (hfew : g.errors ≤ 7) :
    g.endWindow t = { g with upRun := 0, errors := 0, windowDue := some (t + 4000000) } := by
  have hceiling : g.judgedCeiling = g.ceiling := by
    rw [GradeMonitor.judgedCeiling, if_neg (by omega), if_pos hmore]
  have hjudged : g.judgedRun = 0 := by rw [GradeMonitor.judgedRun, if_pos hmore]
  rw [GradeMonitor.endWindow, hceiling, hjudged]
  rfl

theorem endWindow_many (t : Ticks) (hmany : 8 ≤ g.errors) :
    g.endWindow t = { g with
      ceiling := g.ceiling.down, upRun := 0, errors := 0, windowDue := some (t + 4000000) } := by
  have hceiling : g.judgedCeiling = g.ceiling.down := by rw [GradeMonitor.judgedCeiling, if_pos hmany]
  have hjudged : g.judgedRun = 0 := by rw [GradeMonitor.judgedRun, if_pos (by omega)]
  rw [GradeMonitor.endWindow, hceiling, hjudged]
  rfl

/-- A window that keeps the ceiling. -/
theorem exec_windowEnd_same {d : Ticks} (hdue : s.grade.windowDue = some d)
    (h : (s.grade.endWindow d).ceiling = s.grade.ceiling) :
    exec .windowEnd s = .next { s with now := max s.now d, grade := s.grade.endWindow d } := by
  have hexec : exec .windowEnd s = execWindowEnd s := rfl
  rw [hexec, execWindowEnd, hdue]
  exact if_pos h

/-- A window that changes the ceiling (R117, R118). -/
theorem exec_windowEnd_changed {d : Ticks} (hdue : s.grade.windowDue = some d)
    (h : (s.grade.endWindow d).ceiling ≠ s.grade.ceiling) :
    exec .windowEnd s =
      .next ((((s.advanceTo d).setGrade (s.grade.endWindow d)).notify .grade).trigger .ceiling) := by
  have hexec : exec .windowEnd s = execWindowEnd s := rfl
  rw [hexec, execWindowEnd, hdue]
  exact if_neg h

/-- Settles O48, by the errors and the up-run. -/
theorem windowEndJudgesErrors : Obligations.WindowEndJudgesErrors := by
  intro s d hdue hrun hceiling g next
  refine ⟨fun hclean hshort => ?clean, fun hclean h29 hlimit => ?atLimit, fun hmore hfew => ?broken,
    fun hmany hlowest => ?lowest, fun c hc => ?changed⟩
  case clean =>
    have hend := endWindow_clean d hclean hshort
    rw [exec_windowEnd_same hdue (by rw [hend]), hend]
  case atLimit =>
    have hend := endWindow_thirtieth d hclean h29
    rw [if_neg (by rw [hlimit]; exact lt_irrefl _)] at hend
    rw [exec_windowEnd_same hdue (by rw [hend]), hend]
  case broken =>
    have hend := endWindow_some d hmore hfew
    rw [exec_windowEnd_same hdue (by rw [hend]), hend]
  case lowest =>
    have hend := endWindow_many d hmany
    rw [hlowest] at hend
    rw [exec_windowEnd_same hdue (by rw [hend]; exact hlowest.symm), hend]
    rfl
  case changed =>
    intro noticed
    have hend : s.grade.endWindow d = next c 0 := by
      obtain ⟨hmany, hcode⟩ | ⟨hclean, h29, hbelow, hcode⟩ := hc
      · rw [endWindow_many d hmany, Grade.down_eq hcode]
      · rw [endWindow_thirtieth d hclean h29,
          if_pos (lt_of_le_of_ne hceiling fun h => hbelow (Grade.code_inj h)), Grade.up_eq hcode]
    have hdiffers : (s.grade.endWindow d).ceiling ≠ s.grade.ceiling := by
      rw [hend]
      intro h
      have hsame : c.code = g.ceiling.code := congrArg Grade.code h
      obtain ⟨-, hcode⟩ | ⟨-, -, -, hcode⟩ := hc <;> omega
    rw [exec_windowEnd_changed hdue hdiffers, hend]
    refine ⟨fun htakes => ⟨_, rfl, ?_⟩, fun hhalted => ?_⟩
    · exact triggers_of_takes (s := noticed) (r := .ceiling) htakes (by decide)
    · exact congrArg _ (trigger_halted (s := noticed) hhalted)

/-! ## Lifetimes (R132, R133) -/

/-- Settles O49, by whether the entry is in flight. -/
theorem lifetimeExpiryRemovesOrLapses : Obligations.LifetimeExpiryRemovesOrLapses := by
  intro s ticket d before after x hq hnodup hticket hexpiry
  have hexec : exec (.lifetimeExpiry x.ticket) s = if x.inFlight then
      .next ((s.advanceTo d).mapEntry x.ticket fun y => { y with lapsed := true })
      else .next ((s.advanceTo d).removeEntry x.ticket .expired none) := by
    have hexec : exec (.lifetimeExpiry x.ticket) s = execLifetimeExpiry x.ticket s := rfl
    rw [hexec, execLifetimeExpiry, entryOf_split hq hnodup]
    dsimp only
    rw [hexpiry]
  rw [← hticket, hexec]
  refine ⟨fun hqueued hroom => ?_, fun hflight => ?_⟩
  · rw [hqueued, if_neg Bool.false_ne_true, removeEntry_split (s := s.advanceTo d) hq hnodup hroom]
    rfl
  · rw [if_pos hflight, mapEntry_split (s := s.advanceTo d) _ hq hnodup]
    rfl

/-! ## The rename review (R137 to R139) -/

theorem idAt_of_posOf {id : Identity} {q : Nat} (h : cur.posOf id = some q) : cur.idAt q = some id := by
  obtain ⟨hle, hid⟩ := positionFrom_some h
  rw [Roster.idAt, if_neg (by omega)]
  exact hid

/-- Settles O50, by the mode of the destination. -/
theorem renameFollowsIdentity : Obligations.RenameFollowsIdentity := by
  intro prev cur
  refine ⟨fun p id q hid hq => ⟨?bound, idAt_of_posOf hq⟩, fun p id hid hnone => ?departed, fun p hnone => ?unknown,
    fun previous p id hid hp => ?binds, fun previous p hp => ?unresolved, fun previous id hid => if_pos ?heard,
    fun previous id hid => if_neg ?silent, fun previous d hd => ?stays, fun previous x => ?entry⟩
  case bound => simp only [reviewDest, Option.bind_some, hid, hq]
  case departed => simp only [reviewDest, Option.bind_some, hid, hnone]
  case unknown => simp only [reviewDest, Option.bind_some, hnone]
  case binds => exact if_pos ⟨by rw [hid]; rfl, hp⟩
  case unresolved =>
    refine if_neg fun ⟨hheard, hother⟩ => ?_
    obtain h | h := hp
    · rw [h] at hheard
      exact Bool.false_ne_true hheard
    · exact hother h
  case heard => exact List.contains_iff_mem.mpr hid
  case silent => exact mt List.contains_iff_mem.mp hid
  case stays => obtain rfl | rfl | rfl := hd <;> rfl
  case entry =>
    refine ⟨fun kind hkind => ?_, fun d hd => ⟨fun hfits => ?_, fun hlong => ?_⟩⟩ <;> unfold reviewEntry
    · rw [hkind]
    · rw [hd]
      exact if_neg (not_lt.mpr hfits)
    · rw [hd]
      exact if_pos hlong

/-! ## The reset state -/

/-- Settles O51, invariant by invariant. -/
theorem resetIsSafe : Obligations.ResetIsSafe := by
  obtain ⟨hqueue, hflight⟩ := (sound_iff (s := State.reset)).mp reset_sound
  obtain ⟨hchains, himage⟩ := hardwareReset_chains (s := State.reset) (t := State.reset) rfl rfl rfl
  exact {
    modes := hardwareReset_modes State.reset
    chains := hchains
    image := himage
    table := .of_idle rfl rfl
    queue := hqueue
    flight := hflight
    rosters := .of_none rfl rfl rfl (.inl rfl)
    levels := reset_levels }

end Sys2Proof.Machine
end

section
/-! Placement depends on the entries of the heard table alone (R91). -/

namespace Sys2Proof.Machine

variable {l table : List HeardEntry} {e : HeardEntry}

/-- Entries stand by rising identity. -/
def Rising (l : List HeardEntry) : Prop := l.Pairwise fun x y => x.id.toNat ≤ y.id.toNat

theorem insertById_rising (e : HeardEntry) (h : Rising l) : Rising (insertById e l) := by
  unfold Rising at *
  induction l with
  | nil => exact List.pairwise_singleton _ _
  | cons x xs ih =>
    obtain ⟨hx, hxs⟩ := List.pairwise_cons.mp h
    unfold insertById
    split
    · next hle =>
      refine List.pairwise_cons.mpr ⟨fun y hy => ?_, h⟩
      obtain rfl | hy := List.mem_cons.mp hy
      · exact hle
      · exact hle.trans (hx y hy)
    · next hlt =>
      refine List.pairwise_cons.mpr ⟨fun y hy => ?_, ih hxs⟩
      obtain rfl | hy := List.mem_cons.mp ((insertById_perm e xs).mem_iff.mp hy)
      · exact (not_le.mp hlt).le
      · exact hx y hy

theorem sortById_rising (table : List HeardEntry) : Rising (sortById table) := by
  induction table with
  | nil => exact List.Pairwise.nil
  | cons x xs ih => exact insertById_rising x ih

theorem sortById_distinct (h : (table.map HeardEntry.id).Nodup) : ((sortById table).map HeardEntry.id).Nodup :=
  ((sortById_perm table).map HeardEntry.id).nodup_iff.mpr h

/-- Rising entries of different identities are the one order of their set. -/
theorem Rising.eq_of_perm {t u : List HeardEntry} (ht : Rising t) (hu : Rising u) (hperm : t.Perm u)
    (hnodup : (t.map HeardEntry.id).Nodup) : t = u :=
  hperm.eq_of_pairwise (fun _ _ hx hy hxy hyx =>
    List.inj_on_of_nodup_map hnodup hx (hperm.mem_iff.mpr hy) (BitVec.eq_of_toNat_eq (hxy.antisymm hyx))) ht hu

theorem sortById_eq_of_perm {t u : List HeardEntry} (hperm : t.Perm u) (hnodup : (t.map HeardEntry.id).Nodup) :
    sortById t = sortById u :=
  (sortById_rising t).eq_of_perm (sortById_rising u)
    (((sortById_perm t).trans hperm).trans (sortById_perm u).symm) (sortById_distinct hnodup)

theorem any_saturated_iff : table.any HeardEntry.saturated = true ↔
    ∃ x ∈ table, x.offer.endA.saturated = true ∨ x.offer.endB.saturated = true := by
  simp [HeardEntry.saturated]

/-- Settles O43: placement works on the sorted table. -/
theorem placementIgnoresArrivalOrder : Obligations.PlacementIgnoresArrivalOrder := by
  intro t u overflow current epoch own hperm hnodup
  have hmarks : t.any HeardEntry.saturated = u.any HeardEntry.saturated := by
    rw [Bool.eq_iff_iff, any_saturated_iff, any_saturated_iff]
    exact exists_congr fun x => and_congr_left fun _ => hperm.mem_iff
  unfold place
  rw [hmarks, sortById_eq_of_perm hperm hnodup]

end Sys2Proof.Machine
end

section
/-! The roster record of an own run (R101 to R109). -/

namespace Sys2Proof.Machine

variable {slots : List RunSlot} {p q w : Placed} {own : Identity} {limp split : Bool} {epoch : Epoch}

/-! ## The winner of the cab rule (R102) -/

theorem smallest_some {l : List Placed} (h : smallest l = some w) :
    w ∈ l ∧ ∀ q ∈ l, w.entry.id.toNat ≤ q.entry.id.toNat := by
  induction l generalizing w with
  | nil => cases h
  | cons p ps ih =>
    unfold smallest at h
    cases hs : smallest ps with
    | none =>
      rw [hs] at h
      obtain rfl := Option.some.inj h
      have hnil : ps = [] := by
        cases ps with
        | nil => rfl
        | cons x xs =>
          unfold smallest at hs
          split at hs
          · cases hs
          · split at hs <;> cases hs
      rw [hnil]
      exact ⟨List.mem_singleton.mpr rfl, fun q hq => (List.mem_singleton.mp hq) ▸ le_refl _⟩
    | some v =>
      obtain ⟨hv, hmin⟩ := ih hs
      rw [hs] at h
      dsimp only at h
      split at h
      · next hle =>
        obtain rfl := Option.some.inj h
        refine ⟨List.mem_cons_self, fun q hq => ?_⟩
        obtain rfl | hq := List.mem_cons.mp hq
        · exact le_refl _
        · exact hle.trans (hmin q hq)
      · next hlt =>
        obtain rfl := Option.some.inj h
        refine ⟨List.mem_cons_of_mem _ hv, fun q hq => ?_⟩
        obtain rfl | hq := List.mem_cons.mp hq
        · exact (not_le.mp hlt).le
        · exact hmin q hq

theorem smallest_isSome {l : List Placed} (h : l ≠ []) : ∃ w, smallest l = some w := by
  cases l with
  | nil => exact absurd rfl h
  | cons x xs =>
    unfold smallest
    split
    · exact ⟨_, rfl⟩
    · exact ⟨_, (apply_ite some _ _ _).symm⟩

/-- A placed entry has the smallest identity of the active entries of a run. -/
def Wins (slots : List RunSlot) (p : Placed) : Prop :=
  ∀ q ∈ heardSlots slots, q.entry.activeEnd.isSome → p.entry.id.toNat ≤ q.entry.id.toNat

theorem mem_activeSlots : p ∈ activeSlots slots ↔ p ∈ heardSlots slots ∧ p.entry.activeEnd.isSome = true :=
  List.mem_filter

theorem winner_some (h : winner slots = some w) :
    w ∈ heardSlots slots ∧ w.entry.activeEnd.isSome = true ∧ Wins slots w := by
  obtain ⟨hw, hmin⟩ := smallest_some h
  obtain ⟨hheard, hactive⟩ := mem_activeSlots.mp hw
  exact ⟨hheard, hactive, fun q hq hq' => hmin q (mem_activeSlots.mpr ⟨hq, hq'⟩)⟩

theorem winner_isSome (hp : p ∈ heardSlots slots) (hactive : p.entry.activeEnd.isSome = true) :
    ∃ w, winner slots = some w :=
  smallest_isSome (List.ne_nil_of_mem (mem_activeSlots.mpr ⟨hp, hactive⟩))

theorem winner_eq (hnodup : (slotIds slots).Nodup) (hp : p ∈ heardSlots slots)
    (hactive : p.entry.activeEnd.isSome = true) (hwins : Wins slots p) : winner slots = some p := by
  obtain ⟨w, hw⟩ := winner_isSome hp hactive
  obtain ⟨hheard, hwactive, hwwins⟩ := winner_some hw
  have hid : w.entry.id = p.entry.id :=
    BitVec.eq_of_toNat_eq ((hwwins p hp hactive).antisymm (hwins w hheard hwactive))
  rw [hw, List.inj_on_of_nodup_map hnodup hheard hp hid]

theorem winner_none (h : ∀ q ∈ heardSlots slots, q.entry.activeEnd = none) : winner slots = none := by
  have hnil : activeSlots slots = [] := List.filter_eq_nil_iff.mpr fun q hq => by simp [h q hq]
  rw [winner, hnil]
  rfl

theorem winner_id_iff (hnodup : (slotIds slots).Nodup) (hp : p ∈ heardSlots slots)
    (hactive : p.entry.activeEnd.isSome = true) :
    (winner slots).map (fun w => w.entry.id) = some p.entry.id ↔ Wins slots p := by
  refine ⟨fun h => ?_, fun h => by rw [winner_eq hnodup hp hactive h]; rfl⟩
  obtain ⟨w, hw, hid⟩ := Option.map_eq_some_iff.mp h
  intro q hq hq'
  rw [← hid]
  exact (winner_some hw).2.2 q hq hq'

/-! ## Numbering (R102 to R104, R106) -/

theorem referenceLeads_winner {e : End} (hw : winner slots = some w) (he : w.entry.activeEnd = some e) :
    referenceLeads slots = decide (w.near = e) := by
  rw [referenceLeads, hw]
  dsimp only
  rw [he, decide_eq_decide, Option.some.injEq]
  exact eq_comm

theorem referenceLeads_none (hw : winner slots = none) (hp : slots.head? = some (some p))
    (hq : slots.getLast? = some (some q)) :
    referenceLeads slots =
      if slots.length = 1 then decide (p.near = .a) else decide (p.entry.id.toNat < q.entry.id.toNat) := by
  rw [referenceLeads, hw, hp, hq]

/-- The entry of a run position stands at its roster position, from the leading end. -/
theorem numbered_getElem {j : Nat} {slot : RunSlot} (h : slots[j]? = some slot) :
    (numbered slots)[if referenceLeads slots then j else slots.length - 1 - j]? =
      some (rosterEntry (referenceLeads slots) (winner slots) slot) := by
  have hj := (List.getElem?_eq_some_iff.mp h).1
  unfold numbered
  dsimp only
  rw [List.getElem?_map]
  cases referenceLeads slots with
  | true =>
    rw [if_pos rfl, if_pos rfl, h]
    rfl
  | false =>
    rw [if_neg Bool.false_ne_true, if_neg Bool.false_ne_true, List.getElem?_reverse (by omega),
      show slots.length - 1 - (slots.length - 1 - j) = j by omega, h]
    rfl

theorem mem_heardSlots : p ∈ heardSlots slots ↔ some p ∈ slots := by simp [heardSlots]

theorem mem_numbered {e : RosterEntry} :
    e ∈ numbered slots ↔ ∃ slot ∈ slots, rosterEntry (referenceLeads slots) (winner slots) slot = e := by
  unfold numbered
  dsimp only
  rw [List.mem_map]
  cases referenceLeads slots <;> simp

theorem silent_mem_numbered : .silent ∈ numbered slots ↔ none ∈ slots := by
  rw [mem_numbered]
  constructor
  · rintro ⟨slot, hslot, h⟩
    cases slot with
    | none => exact hslot
    | some p => cases h
  · exact fun h => ⟨none, h, rfl⟩

/-! ## Joint parameters (R107) -/

/-- What takes the smaller of two values, by a code. -/
structure TakesSmaller {α : Type} (code : α → Nat) (op : α → α → α) : Prop where
  left  : ∀ g h, code (op g h) ≤ code g
  right : ∀ g h, code (op g h) ≤ code h
  one   : ∀ g h, op g h = g ∨ op g h = h

theorem grade_takesSmaller : TakesSmaller Grade.code Grade.min where
  left g h := by cases g <;> cases h <;> decide
  right g h := by cases g <;> cases h <;> decide
  one g h := ite_eq_or_eq _ _ _

theorem payload_takesSmaller : TakesSmaller PayloadMax.code PayloadMax.min where
  left g h := by cases g <;> cases h <;> decide
  right g h := by cases g <;> cases h <;> decide
  one g h := ite_eq_or_eq _ _ _

/-- The smallest of a first value and the values that some entries have. -/
def smallestOf {α : Type} (op : α → α → α) (value : RosterEntry → Option α) (first : α) (entries : List RosterEntry) : α :=
  entries.foldl (fun g e => ((value e).map (op g)).getD g) first

theorem smallestOf_bounds {α : Type} {code : α → Nat} {op : α → α → α} (h : TakesSmaller code op)
    (value : RosterEntry → Option α) (first : α) (entries : List RosterEntry) :
    code (smallestOf op value first entries) ≤ code first ∧
      (∀ e ∈ entries, ∀ c, value e = some c → code (smallestOf op value first entries) ≤ code c) ∧
      (smallestOf op value first entries = first ∨
        ∃ e ∈ entries, value e = some (smallestOf op value first entries)) := by
  induction entries generalizing first with
  | nil => exact ⟨le_refl _, nofun, .inl rfl⟩
  | cons e es ih =>
    obtain ⟨hfirst, hall, hone⟩ := ih (((value e).map (op first)).getD first)
    have hcons : smallestOf op value first (e :: es) =
        smallestOf op value (((value e).map (op first)).getD first) es := rfl
    rw [← hcons] at hfirst hall hone
    cases hv : value e with
    | none =>
      rw [hv] at hfirst hone
      refine ⟨hfirst, fun x hx c hc => ?_, hone.imp id fun ⟨x, hx, h⟩ => ⟨x, List.mem_cons_of_mem _ hx, h⟩⟩
      obtain rfl | hx := List.mem_cons.mp hx
      · rw [hv] at hc
        cases hc
      · exact hall x hx c hc
    | some v =>
      rw [hv] at hfirst hone
      refine ⟨hfirst.trans (h.left first v), fun x hx c hc => ?_, ?_⟩
      · obtain rfl | hx := List.mem_cons.mp hx
        · rw [hv] at hc
          obtain rfl := Option.some.inj hc
          exact hfirst.trans (h.right first v)
        · exact hall x hx c hc
      · obtain hone | ⟨x, hx, hone⟩ := hone
        · obtain hop | hop := h.one first v
          · exact .inl (hone.trans hop)
          · exact .inr ⟨e, List.mem_cons_self, by rw [hv, hone]; exact congrArg some hop.symm⟩
        · exact .inr ⟨x, List.mem_cons_of_mem _ hx, hone⟩

/-- The grade ceiling of a HEARD entry. -/
def RosterEntry.ceiling? : RosterEntry → Option Grade
  | .silent => none
  | .heard _ _ _ c _ => some c

/-- The payload maximum of a HEARD entry. -/
def RosterEntry.payload? : RosterEntry → Option PayloadMax
  | .silent => none
  | .heard _ _ _ _ m => some m

theorem jointGradeOf_eq (entries : List RosterEntry) :
    jointGradeOf entries = smallestOf Grade.min RosterEntry.ceiling? (lengthCap entries.length) entries := by
  unfold jointGradeOf smallestOf
  congr 1
  funext g e
  cases e <;> rfl

theorem jointPayloadOf_eq (entries : List RosterEntry) :
    jointPayloadOf entries = smallestOf PayloadMax.min RosterEntry.payload? .p128 entries := by
  unfold jointPayloadOf smallestOf
  congr 1
  funext g e
  cases e <;> rfl

theorem mem_numbered_ceiling {c : Grade} :
    (∃ e ∈ numbered slots, e.ceiling? = some c) ↔ ∃ p ∈ heardSlots slots, p.entry.offer.ceiling = c := by
  constructor
  · rintro ⟨e, he, hc⟩
    obtain ⟨slot, hslot, rfl⟩ := mem_numbered.mp he
    cases slot with
    | none => cases hc
    | some p => exact ⟨p, mem_heardSlots.mpr hslot, Option.some.inj hc⟩
  · rintro ⟨p, hp, rfl⟩
    exact ⟨_, mem_numbered.mpr ⟨some p, mem_heardSlots.mp hp, rfl⟩, rfl⟩

theorem mem_numbered_payload {m : PayloadMax} :
    (∃ e ∈ numbered slots, e.payload? = some m) ↔ ∃ p ∈ heardSlots slots, p.entry.offer.payloadMax = m := by
  constructor
  · rintro ⟨e, he, hm⟩
    obtain ⟨slot, hslot, rfl⟩ := mem_numbered.mp he
    cases slot with
    | none => cases hm
    | some p => exact ⟨p, mem_heardSlots.mpr hslot, Option.some.inj hm⟩
  · rintro ⟨p, hp, rfl⟩
    exact ⟨_, mem_numbered.mpr ⟨some p, mem_heardSlots.mp hp, rfl⟩, rfl⟩

/-- The joint grade of a run: the smallest of the ceilings and of the cap by length. -/
theorem jointGrade_numbered (slots : List RunSlot) :
    (jointGradeOf (numbered slots)).code ≤ (if slots.length ≤ 8 then 3 else 2) ∧
      (∀ p ∈ heardSlots slots, (jointGradeOf (numbered slots)).code ≤ p.entry.offer.ceiling.code) ∧
      ((jointGradeOf (numbered slots)).code = (if slots.length ≤ 8 then 3 else 2) ∨
        ∃ p ∈ heardSlots slots, jointGradeOf (numbered slots) = p.entry.offer.ceiling) := by
  have hcap : (lengthCap slots.length).code = if slots.length ≤ 8 then 3 else 2 := by
    unfold lengthCap
    split <;> rfl
  obtain ⟨hfirst, hall, hone⟩ := smallestOf_bounds grade_takesSmaller RosterEntry.ceiling?
    (lengthCap (numbered slots).length) (numbered slots)
  rw [← jointGradeOf_eq] at hfirst hall hone
  rw [numbered_length] at hfirst hone
  rw [hcap] at hfirst
  refine ⟨hfirst, fun p hp => ?_, hone.imp (fun h => by rw [h, hcap]) fun h => ?_⟩
  · obtain ⟨e, he, hc⟩ := mem_numbered_ceiling.mpr ⟨p, hp, rfl⟩
    exact hall e he _ hc
  · obtain ⟨p, hp, hc⟩ := mem_numbered_ceiling.mp h
    exact ⟨p, hp, hc.symm⟩

/-- The joint payload of a run: the smallest of the payload maxima. -/
theorem jointPayload_numbered (hp : p ∈ heardSlots slots) :
    (∀ p ∈ heardSlots slots, (jointPayloadOf (numbered slots)).code ≤ p.entry.offer.payloadMax.code) ∧
      ∃ p ∈ heardSlots slots, jointPayloadOf (numbered slots) = p.entry.offer.payloadMax := by
  obtain ⟨-, hall, hone⟩ := smallestOf_bounds payload_takesSmaller RosterEntry.payload? .p128 (numbered slots)
  rw [← jointPayloadOf_eq] at hall hone
  have hbelow (q : Placed) (hq : q ∈ heardSlots slots) :
      (jointPayloadOf (numbered slots)).code ≤ q.entry.offer.payloadMax.code := by
    obtain ⟨e, he, hm⟩ := mem_numbered_payload.mpr ⟨q, hq, rfl⟩
    exact hall e he _ hm
  refine ⟨hbelow, ?_⟩
  obtain hone | hone := hone
  · have hmax := hbelow p hp
    rw [hone] at hmax
    refine ⟨p, hp, hone.trans ?_⟩
    cases hm : p.entry.offer.payloadMax with
    | p128 => rfl
    | p16 | p32 | p64 => rw [hm] at hmax; exact absurd hmax (by decide)
  · obtain ⟨q, hq, hm⟩ := mem_numbered_payload.mp hone
    exact ⟨q, hq, hm.symm⟩

/-! ## Flags and own position (R102, R105) -/

theorem buildRoster_ownEntry (hown : own ∈ slotIds slots) (limp : Bool) (epoch : Epoch) (split : Bool) :
    (buildRoster limp epoch own slots split).idAt (buildRoster limp epoch own slots split).ownPos = some own := by
  have hmem : own ∈ (numbered slots).filterMap RosterEntry.id? := by
    rw [numbered_ids]
    split
    · exact hown
    · exact List.mem_reverse.mpr hown
  obtain ⟨p, hp⟩ := Option.isSome_iff_exists.mp (positionFrom_isSome hmem 1)
  obtain ⟨hle, hid⟩ := positionFrom_some hp
  have hpos : (buildRoster limp epoch own slots split).ownPos = p := by simp [buildRoster, hp]
  rw [hpos, Roster.idAt, if_neg (by omega)]
  exact hid

theorem activeSlots_two (hnodup : (slotIds slots).Nodup) : 2 ≤ (activeSlots slots).length ↔
    ∃ p ∈ heardSlots slots, ∃ q ∈ heardSlots slots, p.entry.id ≠ q.entry.id ∧
      p.entry.activeEnd.isSome ∧ q.entry.activeEnd.isSome := by
  have hdistinct : ((activeSlots slots).map fun p => p.entry.id).Nodup :=
    hnodup.sublist (List.filter_sublist.map _)
  constructor
  · intro h
    obtain ⟨p, q, rest, hl⟩ : ∃ p q rest, activeSlots slots = p :: q :: rest := by
      match hl : activeSlots slots, h with
      | p :: q :: rest, _ => exact ⟨p, q, rest, rfl⟩
    obtain ⟨hp, hpa⟩ := mem_activeSlots.mp (hl ▸ List.mem_cons_self : p ∈ activeSlots slots)
    obtain ⟨hq, hqa⟩ := mem_activeSlots.mp
      (hl ▸ List.mem_cons_of_mem _ List.mem_cons_self : q ∈ activeSlots slots)
    rw [hl] at hdistinct
    refine ⟨p, hp, q, hq, fun heq => ?_, hpa, hqa⟩
    simp [heq] at hdistinct
  · rintro ⟨p, hp, q, hq, hne, hpa, hqa⟩
    have hsub : [p, q] ⊆ activeSlots slots := by
      intro x hx
      obtain rfl | hx := List.mem_cons.mp hx
      · exact mem_activeSlots.mpr ⟨hp, hpa⟩
      · obtain rfl := List.mem_singleton.mp hx
        exact mem_activeSlots.mpr ⟨hq, hqa⟩
    have hpair : [p, q].Nodup := by
      rw [List.nodup_cons]
      exact ⟨fun h => hne (by rw [List.mem_singleton.mp h]), List.nodup_singleton q⟩
    exact (hpair.subperm hsub).length_le

theorem activeSlots_empty :
    (activeSlots slots).isEmpty = true ↔ ∀ q ∈ heardSlots slots, q.entry.activeEnd = none := by
  rw [List.isEmpty_iff, activeSlots, List.filter_eq_nil_iff]
  exact forall₂_congr fun q _ => by simp

/-! ## The digest (R108) -/

theorem digestBytes_eq (e : RosterEntry) : e.digestBytes = match e with
    | .silent => [0, 0, 0, 0, 0]
    | .heard id o c _ _ => bytes32 id ++ [(if o = .reversed then 0x80 else 0x00) ||| byteOf c.code] := by
  cases e with
  | silent => rfl
  | heard id o c g m => cases o <;> rfl

/-- Settles O44, field by field. -/
theorem rosterRecordOfRun : Obligations.RosterRecordOfRun := by
  intro limp epoch own slots split heard hnodup hown r n wins
  have hnodup : (slotIds slots).Nodup := hnodup
  refine ⟨rfl, rfl, numbered_length slots, buildRoster_ownEntry hown limp epoch split, rfl,
    ⟨referenceLeads slots, fun w hw e he hwins => ?winner, fun hnone p q hp hq => ?noWinner, fun j p hj => ?entry,
      fun j hj => numbered_getElem hj⟩, ?conflict, ?noCab, fun hlimp => ?limp, fun hfull => ?joint, ?digest⟩
  case winner => exact referenceLeads_winner (winner_eq hnodup hw (by rw [he]; rfl) hwins) he
  case noWinner => exact referenceLeads_none (winner_none hnone) hp hq
  case entry =>
    have hp : p ∈ heardSlots slots := mem_heardSlots.mpr (List.mem_of_getElem? hj)
    refine (numbered_getElem hj).trans (congrArg some ?_)
    have hwins (ha : p.entry.activeEnd.isSome = true) := winner_id_iff hnodup hp ha
    refine congrArg (fun c => RosterEntry.heard p.entry.id _ c _ _) ?_
    unfold cabField
    unfold HeardEntry.activeEnd at hwins
    cases hc : p.entry.offer.cab with
    | noCab | idle => rfl
    | activeA | activeB => exact if_congr (hwins (by rw [hc]; rfl)) rfl rfl
  case conflict => exact decide_eq_true_iff.trans (activeSlots_two hnodup)
  case noCab => exact activeSlots_empty
  case limp =>
    subst hlimp
    exact ⟨rfl, rfl, rfl⟩
  case joint =>
    subst hfull
    obtain ⟨p, hp, -⟩ := List.mem_map.mp hown
    obtain ⟨hcap, hbelow, hone⟩ := jointGrade_numbered slots
    obtain ⟨hpbelow, hpone⟩ := jointPayload_numbered hp
    refine ⟨fun h => ?_, fun h => ?_, hcap, hbelow, hone, hpbelow, hpone⟩
    · exact if_pos (List.contains_iff_mem.mpr (silent_mem_numbered.mpr h))
    · exact if_neg fun h' => h (silent_mem_numbered.mp (List.contains_iff_mem.mp h'))
  case digest =>
    have hn : (numbered slots).length = n := numbered_length slots
    show digestOf (numbered slots) _ _ = _
    rw [digestOf, digestInput, hn]
    refine congrArg (fun l => crc32 (bitsOfBytes (l ++ _)) _) (List.flatMap_congr fun e _ => ?_)
    exact digestBytes_eq e

end Sys2Proof.Machine
end

section
/-! Walks by their starts, and what step 4 of placement finds of them (R93 to R97). -/

namespace Sys2Proof.Machine

/-- The only match of a list without repeats. -/
theorem filter_eq_singleton {α : Type} {l : List α} {f : α → Bool} {x : α} (hl : l.Nodup)
    (h : ∀ y, (y ∈ l ∧ f y = true) ↔ y = x) : l.filter f = [x] := by
  refine List.perm_singleton.mp ((List.perm_ext_iff_of_nodup (hl.filter f) (List.nodup_singleton x)).mpr ?_)
  intro y
  rw [List.mem_filter, List.mem_singleton]
  exact h y

/-- Where all alternatives are one, it is that one. -/
theorem pickBy_const {α : Type} [DecidableEq α] {choice : Nat} {alternatives : List α} {fallback x : α}
    (hne : alternatives ≠ []) (h : ∀ y ∈ alternatives, y = x) : pickBy choice alternatives fallback = x := by
  obtain ⟨y, ys, rfl⟩ := List.exists_cons_of_ne_nil hne
  obtain rfl := h y List.mem_cons_self
  have hrest : ys.filter (fun b => !b == y) = [] :=
    List.filter_eq_nil_iff.mpr fun b hb => by simp [h b (List.mem_cons_of_mem _ hb)]
  rw [pickBy, List.eraseDups_cons, hrest]
  rfl

variable {entries table : List HeardEntry} {current : Option Roster}

/-! ## Starts -/

/-- A walk begins where it was started. -/
theorem walkOn_head {fuel : Nat} {last : Placed} {before : List Placed} {w : Walk}
    (h : walkOn entries current fuel last before = .walk w) :
    w.placed.head? = (last :: before).getLast? := by
  have hends (last : Placed) (before : List Placed) (e : Ending) (h : WalkResult.walk ⟨(last :: before).reverse, e⟩ = .walk w) :
      w.placed.head? = (last :: before).getLast? := by
    obtain rfl := WalkResult.walk.inj h
    exact List.head?_reverse
  induction fuel generalizing last before with
  | zero => exact hends _ _ _ h
  | succ fuel ih =>
    unfold walkOn at h
    dsimp only at h
    split_ifs at h
    · exact hends _ _ _ h
    · exact hends _ _ _ h
    · split at h
      · exact hends _ _ _ h
      · split at h
        · exact hends _ _ _ h
        · exact (ih h).trans List.getLast?_cons_cons
        · cases h

theorem walkFrom_start {start : Placed} {w : Walk} (h : walkFrom entries current start = .walk w) :
    w.start = some start := walkOn_head h

theorem mem_trueEnds {p : Placed} :
    p ∈ trueEnds entries ↔ p.entry ∈ entries ∧ (p.entry.at p.near).isTrueEnd = true := by
  obtain ⟨x, e⟩ := p
  unfold trueEnds
  rw [List.mem_flatMap]
  constructor
  · rintro ⟨y, hy, hp⟩
    obtain ⟨e', he', hp⟩ := List.mem_map.mp hp
    obtain ⟨rfl, rfl⟩ := Placed.mk.inj hp
    exact ⟨hy, (List.mem_filter.mp he').2⟩
  · rintro ⟨hx, htrue⟩
    refine ⟨x, hx, List.mem_map.mpr ⟨e, List.mem_filter.mpr ⟨?_, htrue⟩, rfl⟩⟩
    cases e <;> decide

theorem trueEnds_nodup (h : entries.Nodup) : (trueEnds entries).Nodup := by
  unfold trueEnds
  refine List.nodup_flatMap.mpr ⟨fun x _ => ?_, h.imp fun hne => ?_⟩
  · exact ((by decide : [End.a, End.b].Nodup).filter _).map fun _ _ h => (Placed.mk.inj h).2
  · intro p hp hp'
    obtain ⟨e, -, rfl⟩ := List.mem_map.mp hp
    obtain ⟨e', -, he'⟩ := List.mem_map.mp hp'
    exact hne (Placed.mk.inj he').1.symm

theorem mem_walks_iff {w : Walk} : w ∈ walksOf (allWalks entries current) ↔
    ∃ start ∈ trueEnds entries, walkFrom entries current start = .walk w := by
  rw [mem_walksOf, allWalks, List.mem_map]

/-- Two walks of one start are one walk. -/
theorem walk_eq_of_start {w w' : Walk} (h : w ∈ walksOf (allWalks entries current))
    (h' : w' ∈ walksOf (allWalks entries current)) (hstart : w.start = w'.start) : w = w' := by
  obtain ⟨p, -, hp⟩ := mem_walks_iff.mp h
  obtain ⟨p', -, hp'⟩ := mem_walks_iff.mp h'
  obtain rfl := Option.some.inj (((walkFrom_start hp).symm.trans hstart).trans (walkFrom_start hp'))
  exact WalkResult.walk.inj (hp.symm.trans hp')

theorem walks_nodup (h : entries.Nodup) : (walksOf (allWalks entries current)).Nodup := by
  unfold walksOf allWalks
  rw [List.filterMap_map]
  refine (trueEnds_nodup h).filterMap fun p p' w hp hp' => ?_
  have hwalk {p : Placed} (hp : w ∈ walksOf [walkFrom entries current p]) : w.start = some p :=
    walkFrom_start (List.mem_singleton.mp (mem_walksOf.mp hp)).symm
  exact Option.some.inj ((hwalk (by simpa [walksOf] using hp)).symm.trans (hwalk (by simpa [walksOf] using hp')))

/-- The walk that starts at an end is the one with that start. -/
theorem startingAt_eq (hnodup : (entries.map HeardEntry.id).Nodup) {w : Walk} {p : Placed}
    (h : w ∈ walksOf (allWalks entries current)) (hstart : w.start = some p) :
    startingAt (walksOf (allWalks entries current)) (p.entry.id, p.near) = some w := by
  unfold startingAt
  cases hfound : (walksOf (allWalks entries current)).find? _ with
  | none =>
    have hnot := List.find?_eq_none.mp hfound w h
    rw [hstart] at hnot
    simp at hnot
  | some v =>
    have hv := List.mem_of_find?_eq_some hfound
    have hat := List.find?_some hfound
    split at hat
    case h_2 => cases hat
    case h_1 q hq =>
      simp only [Bool.and_eq_true, decide_eq_true_eq] at hat
      have hmem {w : Walk} {p : Placed} (h : w ∈ walksOf (allWalks entries current)) (hs : w.start = some p) :
          p.entry ∈ entries := (allWalks_ok h).subset p (List.mem_of_mem_head? hs)
      have hentry := List.inj_on_of_nodup_map hnodup (hmem hv hq) (hmem h hstart) hat.1
      have hqp : q = p := by
        obtain ⟨x, e⟩ := q
        obtain ⟨y, e'⟩ := p
        obtain rfl : x = y := hentry
        obtain rfl : e = e' := hat.2
        rfl
      exact congrArg some (walk_eq_of_start hv h (by rw [hq, hstart, hqp]))

/-! ## Conflicts -/

theorem mem_conflictsOf {rs : List WalkResult} {ids : List Identity} :
    ids ∈ conflictsOf rs ↔ .conflict ids ∈ rs := by
  unfold conflictsOf
  rw [List.mem_filterMap]
  constructor
  · rintro ⟨r, hr, h⟩
    split at h
    · cases h
    · obtain rfl := Option.some.inj h; exact hr
  · exact fun h => ⟨_, h, rfl⟩

theorem conflictsOf_eq_nil {rs : List WalkResult} : conflictsOf rs = [] ↔ ∀ ids, .conflict ids ∉ rs := by
  rw [List.eq_nil_iff_forall_not_mem]
  exact forall_congr' fun _ => not_congr mem_conflictsOf

/-! ## What step 4 finds -/

/-- The walks on which a station stands. -/
abbrev minesOf (ws : List Walk) (own : Identity) : List Walk := ws.filter fun w => w.ids.contains own

variable {ws : List Walk} {own : Identity}

theorem mem_minesOf {w : Walk} : w ∈ minesOf ws own ↔ w ∈ ws ∧ own ∈ w.ids := by
  rw [minesOf, List.mem_filter, List.contains_iff_mem]

/-- The closed walks on which a station stands. -/
abbrev closedOf (ws : List Walk) (own : Identity) : List Walk :=
  (minesOf ws own).filter fun w => w.ending = .closed

/-- What step 4 finds where no closed walk holds the own entry. -/
def openRuns (ws : List Walk) (own : Identity) : List Walk → List RunResult
  | [] => [.unplaced]
  | [w] => [match w.ending with
      | .gapStopped => gapRun ws w
      | .faultStopped => faultRun ws own w
      | .closed => .unplaced]
  | _ => [.tangled]

theorem ownRuns_open (hopen : ∀ w ∈ minesOf ws own, w.ending ≠ .closed) :
    ownRuns ws own = openRuns ws own (minesOf ws own) := by
  have hclosed : closedOf ws own = [] := List.filter_eq_nil_iff.mpr fun w hw => by simpa using hopen w hw
  unfold ownRuns
  dsimp only
  split
  · rfl
  case h_2 hne => exact absurd hclosed hne

theorem ownRuns_none (h : minesOf ws own = []) : ownRuns ws own = [.unplaced] := by
  rw [ownRuns_open fun w hw => absurd (h ▸ hw) List.not_mem_nil, h]
  rfl

theorem ownRuns_single {w : Walk} (h : minesOf ws own = [w]) (hend : w.ending ≠ .closed) :
    ownRuns ws own = openRuns ws own [w] := by
  rw [ownRuns_open fun v hv => ?_, h]
  obtain rfl := List.mem_singleton.mp (h ▸ hv)
  exact hend

theorem ownRuns_gap {w : Walk} (h : minesOf ws own = [w]) (hend : w.ending = .gapStopped) :
    ownRuns ws own = [gapRun ws w] := by
  rw [ownRuns_single h (by simp [hend]), openRuns, hend]

theorem ownRuns_fault {w : Walk} (h : minesOf ws own = [w]) (hend : w.ending = .faultStopped) :
    ownRuns ws own = [faultRun ws own w] := by
  rw [ownRuns_single h (by simp [hend]), openRuns, hend]

theorem ownRuns_tangled (h : 2 ≤ (minesOf ws own).length) (hopen : ∀ w ∈ minesOf ws own, w.ending ≠ .closed) :
    ownRuns ws own = [.tangled] := by
  rw [ownRuns_open hopen]
  match hm : minesOf ws own with
  | [] | [_] => rw [hm] at h; simp at h
  | _ :: _ :: _ => rfl

theorem ownRuns_closed (h : closedOf ws own ≠ []) :
    ownRuns ws own = decisive ((closedOf ws own).map (closedRun ws)) := by
  unfold ownRuns
  dsimp only
  split
  case h_1 hnil => exact absurd hnil h
  · rfl

/-- The results that count are all failed mirror checks, or none of them is. -/
theorem decisive_mirrors (rs : List RunResult) : (∀ r ∈ decisive rs, r.failsMirror = true) ∨
    (∀ r ∈ decisive rs, r.failsMirror = false) := by
  unfold decisive
  split
  case h_1 hnone => exact .inr fun r hr => by simpa using List.filter_eq_nil_iff.mp hnone r hr
  · exact .inl fun r hr => (List.mem_filter.mp hr).2

theorem gapRun_run (w : Walk) : ∃ slots split, gapRun ws w = .run slots split := by
  unfold gapRun
  dsimp only
  split <;> exact ⟨_, _, rfl⟩

theorem faultRun_run (w : Walk) : ∃ slots split, faultRun ws own w = .run slots split := by
  unfold faultRun
  dsimp only
  split <;> exact ⟨_, _, rfl⟩

theorem ownRuns_mirrors (ws : List Walk) (own : Identity) : (∀ r ∈ ownRuns ws own, r.failsMirror = true) ∨
    (∀ r ∈ ownRuns ws own, r.failsMirror = false) := by
  by_cases hclosed : closedOf ws own = []
  · refine .inr fun r hr => ?_
    rw [ownRuns_open fun w hw => by simpa using List.filter_eq_nil_iff.mp hclosed w hw] at hr
    match minesOf ws own, hr with
    | [], hr | _ :: _ :: _, hr => obtain rfl := List.mem_singleton.mp hr; rfl
    | [w], hr =>
      obtain rfl := List.mem_singleton.mp hr
      obtain ⟨_, _, hgap⟩ := gapRun_run (ws := ws) w
      obtain ⟨_, _, hfault⟩ := faultRun_run (ws := ws) (own := own) w
      cases w.ending with
      | closed => rfl
      | gapStopped => rw [hgap]; rfl
      | faultStopped => rw [hfault]; rfl
  · rw [ownRuns_closed hclosed]
    exact decisive_mirrors _

theorem forget_of_not_failsMirror {r : RunResult} (h : r.failsMirror = false) : r.forget = r := by
  cases r with
  | mirror => cases h
  | _ => rfl

theorem forget_of_failsMirror {r : RunResult} (h : r.failsMirror = true) : r.forget = .mirror [] := by
  cases r with
  | mirror => rfl
  | _ => cases h

theorem ownRun_const {r : RunResult} (hne : ownRuns ws own ≠ []) (h : ∀ r' ∈ ownRuns ws own, r' = r) :
    ownRun ws own = r := pickBy_const hne h

theorem ownRunFull_const {r : RunResult} (hne : ownRuns ws own ≠ [])
    (h : ∀ r' ∈ ownRuns ws own, r'.forget = r) : ownRunFull ws own = r := by
  refine pickBy_const (by simpa using hne) fun r' hr' => ?_
  obtain ⟨r, hr, rfl⟩ := List.mem_map.mp hr'
  exact h r hr

theorem ownRun_single {r : RunResult} (h : ownRuns ws own = [r]) : ownRun ws own = r :=
  ownRun_const (by simp [h]) (by simp [h])

theorem ownRunFull_single {r : RunResult} (h : ownRuns ws own = [r]) : ownRunFull ws own = r.forget :=
  ownRunFull_const (by simp [h]) (by simp [h])

/-- Where full placement has a run, limp placement has the same. -/
theorem ownRun_of_ownRunFull {slots : List RunSlot} {split : Bool} (h : ownRunFull ws own = .run slots split) :
    ownRun ws own = .run slots split := by
  have hne : ownRuns ws own ≠ [] := by
    rintro hnil
    rw [ownRunFull, hnil] at h
    cases h
  obtain hall | hnone := ownRuns_mirrors ws own
  · have := ownRunFull_const hne fun r hr => forget_of_failsMirror (hall r hr)
    rw [this] at h
    cases h
  · have hmap : (ownRuns ws own).map RunResult.forget = ownRuns ws own :=
      (List.map_congr_left fun r hr => forget_of_not_failsMirror (hnone r hr)).trans (List.map_id _)
    rwa [ownRunFull, hmap] at h

/-! ## Full placement -/

/-- No entry bears a saturated mark. -/
abbrev Unmarked (table : List HeardEntry) : Prop :=
  ¬∃ x ∈ table, x.offer.endA.saturated = true ∨ x.offer.endB.saturated = true

variable {epoch : Epoch}

theorem place_eq (hmarks : Unmarked table) (hclear : ∀ ids, .conflict ids ∉ allWalks (sortById table) current) :
    place table false current epoch own =
      placementOfRun epoch own (ownRunFull (walksOf (allWalks (sortById table) current)) own) := by
  unfold place
  rw [if_neg (by simp), if_neg (by rwa [any_saturated_iff])]
  dsimp only
  rw [conflictsOf_eq_nil.mpr hclear]
  rfl

theorem place_conflict (hmarks : Unmarked table) {ids : List Identity}
    (h : .conflict ids ∈ allWalks (sortById table) current) :
    place table false current epoch own = .conflict := by
  unfold place
  rw [if_neg (by simp), if_neg (by rwa [any_saturated_iff])]
  refine if_neg fun hnil => ?_
  exact conflictsOf_eq_nil.mp (List.isEmpty_iff.mp hnil) ids h

end Sys2Proof.Machine
end

section
/-! Limp placement restarts without the entries that a conflict or a failed mirror check drops (R110). -/

namespace Sys2Proof.Machine

variable {current : Option Roster} {own : HeardEntry} {working table : List HeardEntry} {epoch : Epoch}

/-- The entries that remain when some identities are dropped. -/
abbrev without (drop : List Identity) (entries : List HeardEntry) : List HeardEntry :=
  entries.filter fun x => !drop.contains x.id

/-! ## One restart -/

theorem limpRun_run {slots : List RunSlot} {split : Bool} (fuel : Nat)
    (hclear : ∀ ids, .conflict ids ∉ allWalks working current)
    (h : ownRun (walksOf (allWalks working current)) own.id = .run slots split) :
    limpRun current own (fuel + 1) working = (slots, split) := by
  rw [limpRun]
  dsimp only
  rw [conflictsOf_eq_nil.mpr hclear]
  dsimp only
  rw [h]

theorem limpRun_alone (fuel : Nat) (hclear : ∀ ids, .conflict ids ∉ allWalks working current)
    (h : ownRun (walksOf (allWalks working current)) own.id = .unplaced ∨
      ownRun (walksOf (allWalks working current)) own.id = .tangled) :
    limpRun current own (fuel + 1) working = (aloneSlots own, true) := by
  rw [limpRun]
  dsimp only
  rw [conflictsOf_eq_nil.mpr hclear]
  obtain h | h := h <;> (dsimp only; rw [h])

theorem limpRun_mirror {drop : List Identity} (fuel : Nat) (hclear : ∀ ids, .conflict ids ∉ allWalks working current)
    (h : ownRun (walksOf (allWalks working current)) own.id = .mirror drop) :
    limpRun current own (fuel + 1) working = limpRun current own fuel (without drop working) := by
  rw [limpRun]
  dsimp only
  rw [conflictsOf_eq_nil.mpr hclear]
  dsimp only
  rw [h]

theorem limpRun_conflict (fuel : Nat) (h : conflictsOf (allWalks working current) ≠ []) :
    limpRun current own (fuel + 1) working = limpRun current own fuel (without
      (pickBy (Config.limpConflictChoice (conflictsOf (allWalks working current)))
        (conflictsOf (allWalks working current)) []) working) := by
  rw [limpRun]
  dsimp only
  split
  case h_1 hnil => exact absurd hnil h
  · rfl

/-- A working set is the last one, whatever the fuel, or goes on without some entries. -/
theorem limpRun_cases (current : Option Roster) (own : HeardEntry) (working : List HeardEntry) :
    (∃ found, ∀ fuel, limpRun current own (fuel + 1) working = found) ∨
      ∃ drop, ∀ fuel, limpRun current own (fuel + 1) working = limpRun current own fuel (without drop working) := by
  by_cases hc : conflictsOf (allWalks working current) = []
  · have hclear := conflictsOf_eq_nil.mp hc
    cases hrun : ownRun (walksOf (allWalks working current)) own.id with
    | run slots split => exact .inl ⟨_, fun fuel => limpRun_run fuel hclear hrun⟩
    | mirror drop => exact .inr ⟨_, fun fuel => limpRun_mirror fuel hclear hrun⟩
    | tangled => exact .inl ⟨_, fun fuel => limpRun_alone fuel hclear (.inr hrun)⟩
    | unplaced => exact .inl ⟨_, fun fuel => limpRun_alone fuel hclear (.inl hrun)⟩
  · exact .inr ⟨_, fun fuel => limpRun_conflict fuel hc⟩

/-! ## Fuel -/

/-- More fuel than entries is enough: each restart drops an entry, or drops none for ever. -/
theorem limpRun_fuel {n m : Nat} (hn : working.length < n) (hm : working.length < m) :
    limpRun current own n working = limpRun current own m working := by
  induction hk : working.length using Nat.strong_induction_on generalizing working n m with
  | _ k ih =>
    obtain ⟨n, rfl⟩ := Nat.exists_eq_add_of_lt hn
    obtain ⟨m, rfl⟩ := Nat.exists_eq_add_of_lt hm
    obtain ⟨found, hfound⟩ | ⟨drop, hdrop⟩ := limpRun_cases current own working
    · rw [hfound, hfound]
    · by_cases hsame : without drop working = working
      · have hzero (fuel : Nat) : limpRun current own fuel working = limpRun current own 0 working := by
          induction fuel with
          | zero => rfl
          | succ fuel ihf => rw [hdrop, hsame, ihf]
        rw [hzero, hzero (_ + m + 1)]
      · have hless : (without drop working).length < working.length :=
          List.length_filter_lt_length_iff_exists.mpr (by simpa [List.filter_eq_self] using hsame)
        rw [hdrop, hdrop]
        exact ih _ (hk ▸ hless) (by omega) (by omega) rfl

theorem sortById_filter (hnodup : (table.map HeardEntry.id).Nodup) (keep : HeardEntry → Bool) :
    sortById (table.filter keep) = (sortById table).filter keep :=
  (sortById_rising _).eq_of_perm ((sortById_rising table).filter _)
    ((sortById_perm _).trans ((sortById_perm table).symm.filter _))
    (sortById_distinct (hnodup.sublist (List.filter_sublist.map _)))

theorem limpRoster_eq : limpRoster table current epoch own =
    buildRoster true epoch own.id (limpRun current own (table.length + 1) (sortById table)).1
      (limpRun current own (table.length + 1) (sortById table)).2 := rfl

theorem limpRoster_of_run {slots : List RunSlot} {split : Bool}
    (h : limpRun current own (table.length + 1) (sortById table) = (slots, split)) :
    limpRoster table current epoch own = buildRoster true epoch own.id slots split := by
  rw [limpRoster_eq, h]

/-- A limp roster is that of the entries its first restart goes on with. -/
theorem limpRoster_of_drop (hnodup : (table.map HeardEntry.id).Nodup) {drop : List Identity}
    (h : ∀ fuel, limpRun current own (fuel + 1) (sortById table) =
      limpRun current own fuel (without drop (sortById table))) :
    limpRoster table current epoch own = limpRoster (without drop table) current epoch own := by
  have hlen : (sortById table).length = table.length := (sortById_perm table).length_eq
  have hsort := sortById_filter hnodup fun x => !drop.contains x.id
  have hlen' : (without drop (sortById table)).length = (without drop table).length :=
    (congrArg List.length hsort).symm.trans (sortById_perm (without drop table)).length_eq
  have hle : (without drop table).length ≤ table.length := List.length_filter_le _ _
  have hrun : limpRun current own (table.length + 1) (sortById table) =
      limpRun current own ((without drop table).length + 1) (sortById (without drop table)) := by
    rw [hsort, limpRun_fuel (m := table.length + 1 + 1) (by omega) (by omega), h]
    exact limpRun_fuel (by omega) (by omega)
  rw [limpRoster_eq, limpRoster_eq, hrun]

/-! ## An own entry that is dropped -/

theorem minesOf_walks_eq_nil {id : Identity} (h : id ∉ working.map HeardEntry.id) :
    minesOf (walksOf (allWalks working current)) id = [] :=
  List.filter_eq_nil_iff.mpr fun _ hw hown =>
    h ((allWalks_ok hw).ids_subset _ (List.contains_iff_mem.mp hown))

theorem limpRun_absent (h : own.id ∉ working.map HeardEntry.id) (fuel : Nat) :
    limpRun current own fuel working = (aloneSlots own, true) := by
  induction fuel generalizing working with
  | zero => rfl
  | succ fuel ih =>
    by_cases hc : conflictsOf (allWalks working current) = []
    · exact limpRun_alone fuel (conflictsOf_eq_nil.mp hc)
        (.inl (ownRun_single (ownRuns_none (minesOf_walks_eq_nil h))))
    · rw [limpRun_conflict fuel hc]
      exact ih fun hmem => h ((List.filter_sublist.map _).subset hmem)

/-! ## Mirror checks -/

theorem mem_notMirrored {w w' : Walk} {id : Identity} : id ∈ notMirrored w w' ↔
    (id ∈ w.ids ∨ id ∈ w'.ids) ∧
      ∀ j, j < w.ids.length → w.ids[j]? = some id → w'.ids[w.ids.length - 1 - j]? ≠ some id := by
  unfold notMirrored
  dsimp only
  rw [List.mem_filter, List.mem_eraseDups, List.mem_append, Bool.not_eq_true', ← Bool.not_eq_true, List.contains_iff_mem,
    List.mem_filterMap, Walk.ids_length]
  refine and_congr_right fun _ => ⟨fun h j hj hw hw' => h ⟨j, List.mem_range.mpr hj, ?_⟩, ?_⟩
  · rw [hw, hw']
    simp
  · rintro h ⟨j, hj, hagree⟩
    split at hagree
    case h_2 => cases hagree
    case h_1 x y hx hy =>
      split at hagree
      case isFalse => cases hagree
      case isTrue hxy =>
        obtain rfl := hxy
        obtain rfl := Option.some.inj hagree
        exact h j (List.mem_range.mp hj) hx hy

variable {ws : List Walk}

/-- The walk from the other extremity of a closed walk. -/
def Walk.PairedWith (ws : List Walk) (w w' : Walk) : Prop :=
  w' ∈ ws ∧ w'.start.map (fun p => (p.entry.id, p.near)) = w.otherEnd

/-- A walk that is closed and places the same stations from the other extremity. -/
def Walk.MirroredBy (w w' : Walk) : Prop := w'.ending = .closed ∧ w'.ids.reverse = w.ids

theorem startingAt_of_paired (hnodup : (working.map HeardEntry.id).Nodup) {w w' : Walk}
    (h : w.PairedWith (walksOf (allWalks working current)) w') :
    w.otherEnd.bind (startingAt (walksOf (allWalks working current))) = some w' := by
  obtain ⟨hw', hstart⟩ := h
  obtain ⟨start, -, hwalk⟩ := mem_walks_iff.mp hw'
  have hs := walkFrom_start hwalk
  rw [hs] at hstart
  rw [← hstart]
  exact startingAt_eq hnodup hw' hs

theorem closedRun_eq_mirror {w w' : Walk} (h : w.otherEnd.bind (startingAt ws) = some w')
    (hm : ¬w.MirroredBy w') : closedRun ws w = .mirror (notMirrored w w') := by
  unfold closedRun
  rw [h]
  exact if_neg fun ⟨hclosed, _, hids⟩ => hm ⟨hclosed, hids⟩

/-- A closed walk that its other extremity mirrors: the run from the extremity of the smaller identity. -/
theorem closedRun_eq_run {w w' : Walk} {p p' : Placed} (h : w.otherEnd.bind (startingAt ws) = some w')
    (hm : w.MirroredBy w') (hp : w.start = some p) (hp' : w'.start = some p') :
    closedRun ws w = .run (if (if p.entry.id = p'.entry.id then decide (p.near = .a)
      else decide (p.entry.id.toNat < p'.entry.id.toNat)) then w.slots else w'.slots) false := by
  obtain ⟨hclosed, hids⟩ := hm
  have hlen : w'.placed.length = w.placed.length := by
    rw [← Walk.ids_length, ← Walk.ids_length, ← hids, List.length_reverse]
  unfold closedRun
  rw [h]
  dsimp only
  rw [if_pos ⟨hclosed, hlen, hids⟩, hp, hp']

theorem closedRun_not_failsMirror {w w' : Walk} (hnodup : (working.map HeardEntry.id).Nodup)
    (hw : w ∈ walksOf (allWalks working current)) (h : w.PairedWith (walksOf (allWalks working current)) w')
    (hm : w.MirroredBy w') : (closedRun (walksOf (allWalks working current)) w).failsMirror = false := by
  obtain ⟨start, -, hwalk⟩ := mem_walks_iff.mp hw
  obtain ⟨start', -, hwalk'⟩ := mem_walks_iff.mp h.1
  rw [closedRun_eq_run (startingAt_of_paired hnodup h) hm (walkFrom_start hwalk) (walkFrom_start hwalk')]
  rfl

/-- One failed mirror check is enough for the failed ones to count. -/
theorem decisive_of_failing {rs : List RunResult} {r : RunResult} (hr : r ∈ rs) (hfails : r.failsMirror = true) :
    decisive rs = rs.filter RunResult.failsMirror := by
  unfold decisive
  split
  case h_1 hnone => exact absurd hfails (by simpa using List.filter_eq_nil_iff.mp hnone r hr)
  · rfl

section Failing

variable {id : Identity} {w w' : Walk} (hw : w ∈ minesOf (walksOf (allWalks working current)) id)
  (hclosed : w.ending = .closed) (hnodup : (working.map HeardEntry.id).Nodup)
  (hpaired : w.PairedWith (walksOf (allWalks working current)) w') (hmirror : ¬w.MirroredBy w')

include hw hclosed hnodup hpaired hmirror

/-- A closed walk of the own entry that fails its mirror check is among what step 4 finds, and so are failed checks
only. -/
theorem ownRuns_failing : .mirror (notMirrored w w') ∈ ownRuns (walksOf (allWalks working current)) id ∧
    ownRuns (walksOf (allWalks working current)) id =
      ((closedOf (walksOf (allWalks working current)) id).map
        (closedRun (walksOf (allWalks working current)))).filter RunResult.failsMirror := by
  have hrun := closedRun_eq_mirror (startingAt_of_paired hnodup hpaired) hmirror
  have hmem : w ∈ closedOf (walksOf (allWalks working current)) id :=
    List.mem_filter.mpr ⟨hw, decide_eq_true hclosed⟩
  have hfound : .mirror (notMirrored w w') ∈ (closedOf (walksOf (allWalks working current)) id).map
      (closedRun (walksOf (allWalks working current))) := hrun ▸ List.mem_map_of_mem hmem
  have heq := (ownRuns_closed (List.ne_nil_of_mem hmem)).trans (decisive_of_failing hfound rfl)
  exact ⟨heq ▸ List.mem_filter.mpr ⟨hfound, rfl⟩, heq⟩

theorem ownRunFull_failing : ownRunFull (walksOf (allWalks working current)) id = .mirror [] := by
  obtain ⟨hmem, heq⟩ := ownRuns_failing hw hclosed hnodup hpaired hmirror
  refine ownRunFull_const (List.ne_nil_of_mem hmem) fun r hr => forget_of_failsMirror ?_
  rw [heq] at hr
  exact (List.mem_filter.mp hr).2

/-- Where all other closed walks of the own entry pass their checks, the one that fails says what is dropped. -/
theorem ownRun_failing (hothers : ∀ v ∈ minesOf (walksOf (allWalks working current)) id, v.ending = .closed → v ≠ w →
      ∃ v', v.PairedWith (walksOf (allWalks working current)) v' ∧ v.MirroredBy v') :
    ownRun (walksOf (allWalks working current)) id = .mirror (notMirrored w w') := by
  obtain ⟨hmem, heq⟩ := ownRuns_failing hw hclosed hnodup hpaired hmirror
  refine ownRun_const (List.ne_nil_of_mem hmem) fun r hr => ?_
  rw [heq] at hr
  obtain ⟨hr, hfails⟩ := List.mem_filter.mp hr
  obtain ⟨v, hv, rfl⟩ := List.mem_map.mp hr
  obtain ⟨hv, hvclosed⟩ := List.mem_filter.mp hv
  by_cases hvw : v = w
  · subst hvw
    exact closedRun_eq_mirror (startingAt_of_paired hnodup hpaired) hmirror
  · obtain ⟨v', hpair, hm⟩ := hothers v hv (of_decide_eq_true hvclosed) hvw
    have hpass := closedRun_not_failsMirror hnodup (mem_minesOf.mp hv).1 hpair hm
    rw [hpass] at hfails
    cases hfails

end Failing

/-! ## The failures of full placement, and the limp rosters of the same tables -/

theorem filter_not_mem_eq (drop : List Identity) : (table.filter fun x => x.id ∉ drop) = without drop table :=
  List.filter_congr fun x _ => by simp

/-- Settles O47, clause by clause: limp placement reads the results of the same walks. -/
theorem limpPlacesWherePlacementFails : Obligations.LimpPlacesWherePlacementFails := by
  intro table current epoch own hnodup full limp walks ws mine alone marked mirrors paired
  have hsorted := sortById_distinct hnodup
  have hfull (hmarks : ¬marked) (hclear : ∀ ids, .conflict ids ∉ walks) {r : RunResult}
      (hr : ownRunFull ws own.id = r) : full = placementOfRun epoch own.id r :=
    (place_eq hmarks hclear).trans (congrArg _ hr)
  refine ⟨if_pos rfl, fun hmarked => ?tooLong, fun hmarks ⟨ids, hids⟩ => place_conflict hmarks hids,
    fun habsent => ?absent, fun drop ⟨ids, hids⟩ hall => ?conflict, fun hclear => ⟨fun slots split hrun => ?run,
      fun hnone => ?unplaced, fun htwo hopen => ?tangled, fun w w' hw hclosed hpaired hmirror => ⟨?_, ?_⟩⟩⟩
  case tooLong => exact (if_neg (by simp)).trans (if_pos (any_saturated_iff.mpr hmarked))
  case absent =>
    refine limpRoster_of_run (limpRun_absent (fun hmem => habsent ?_) _)
    exact ((sortById_perm table).map _).mem_iff.mp hmem
  case conflict =>
    have hne : conflictsOf walks ≠ [] := List.ne_nil_of_mem (mem_conflictsOf.mpr hids)
    refine (limpRoster_of_drop hnodup (drop := drop) fun fuel => ?_).trans (by rw [← filter_not_mem_eq])
    rw [limpRun_conflict fuel hne, pickBy_const hne fun ids h => hall ids (mem_conflictsOf.mp h)]
  case run => exact limpRoster_of_run (limpRun_run _ hclear (ownRun_of_ownRunFull hrun))
  case unplaced =>
    have hruns := ownRuns_none hnone
    exact ⟨limpRoster_of_run (limpRun_alone _ hclear (.inl (ownRun_single hruns))),
      fun hmarks => hfull hmarks hclear (ownRunFull_single hruns)⟩
  case tangled =>
    have hruns := ownRuns_tangled htwo hopen
    exact ⟨limpRoster_of_run (limpRun_alone _ hclear (.inr (ownRun_single hruns))),
      fun hmarks => hfull hmarks hclear (ownRunFull_single hruns)⟩
  · exact fun hmarks => hfull hmarks hclear (ownRunFull_failing hw hclosed hsorted hpaired hmirror)
  · intro hothers
    have hrun := ownRun_failing hw hclosed hsorted hpaired hmirror hothers
    refine (limpRoster_of_drop hnodup fun fuel => limpRun_mirror fuel hclear hrun).trans ?_
    refine congrArg limp (List.filter_congr fun x _ => ?_)
    rw [Bool.eq_iff_iff, Bool.not_eq_true', ← Bool.not_eq_true, List.contains_iff_mem, mem_notMirrored,
      decide_eq_true_iff]

end Sys2Proof.Machine
end

section
/-! Walks step by step, and the walk along a row of stations (R93 to R95). -/

namespace Sys2Proof.Machine

variable {entries : List HeardEntry} {current : Option Roster}

theorem End.eq_or_eq_other (e e' : End) : e' = e ∨ e' = e.other := by
  cases e <;> cases e' <;> decide

/-! ## Steps -/

theorem mem_matchesOf {seen : List Identity} {s c : HeardEntry} {y t : End} {k : Nat} :
    c ∈ matchesOf entries current seen s y t k ↔ c ∈ entries ∧ c.id ∉ seen ∧ (c.at t).count = k ∧
      (c.at t).facing = some y ∧ contradicts current s.id y c.id = false ∧ contradicts current c.id t s.id = false := by
  unfold matchesOf
  rw [List.mem_filter]
  simp only [Bool.and_eq_true, Bool.not_eq_true', decide_eq_true_eq, and_assoc, ← Bool.not_eq_true,
    List.contains_iff_mem]

section Step

variable {fuel : Nat} {last : Placed} {before : List Placed}

theorem walkOn_closed (h : (last.entry.at last.near.other).isTrueEnd = true) :
    walkOn entries current (fuel + 1) last before = .walk ⟨(last :: before).reverse, .closed⟩ := by
  rw [walkOn]
  exact if_pos h

theorem walkOn_fault (h : (last.entry.at last.near.other).state = .fault) :
    walkOn entries current (fuel + 1) last before = .walk ⟨(last :: before).reverse, .faultStopped⟩ := by
  have hinner : ¬(last.entry.at last.near.other).isTrueEnd = true := by simp [Triple.isTrueEnd, h]
  rw [walkOn]
  exact (if_neg hinner).trans (if_pos h)

/-- The matches of the step from `last`. -/
abbrev stepMatches (entries : List HeardEntry) (current : Option Roster) (last : Placed) (before : List Placed)
    (f : End) : List HeardEntry :=
  matchesOf entries current ((last :: before).map fun p => p.entry.id) last.entry last.near.other f
    (last :: before).length

/-- What the matches of a step make of the walk. -/
def goOn (entries : List HeardEntry) (current : Option Roster) (fuel : Nat) (placed : List Placed) (f : End) :
    List HeardEntry → WalkResult
  | [] => .walk ⟨placed.reverse, .gapStopped⟩
  | [m] => walkOn entries current fuel ⟨m, f⟩ placed
  | ms => .conflict (ms.map HeardEntry.id)

theorem walkOn_held (hheld : (last.entry.at last.near.other).state = .held) {f : End}
    (hfacing : (last.entry.at last.near.other).facing = some f) : walkOn entries current (fuel + 1) last before =
      goOn entries current fuel (last :: before) f (stepMatches entries current last before f) := by
  have hinner : ¬(last.entry.at last.near.other).isTrueEnd = true := by simp [Triple.isTrueEnd, hheld]
  rw [walkOn, if_neg hinner, if_neg (by simp [hheld]), hfacing]
  rfl

/-- Two matches are a conflict. -/
theorem goOn_conflict {placed : List Placed} {f : End} {ms : List HeardEntry} {m m' : HeardEntry} (hm : m ∈ ms)
    (hm' : m' ∈ ms) (hne : m ≠ m') : ∃ ids, goOn entries current fuel placed f ms = .conflict ids := by
  match ms with
  | [] => cases hm
  | [_] => exact absurd ((List.mem_singleton.mp hm).trans (List.mem_singleton.mp hm').symm) hne
  | x :: y :: rest => exact ⟨(x :: y :: rest).map HeardEntry.id, rfl⟩

end Step

/-! ## Routes -/

/-- The walk that places some stations in their order, each reached by its end `e`. -/
def along (e : End) (row : List HeardEntry) (ending : Ending) : Walk := ⟨row.map fun x => ⟨x, e⟩, ending⟩

/-- From `r`, reached by its end `e` as the `k`th station, a walk goes on to `r'` and to no other. -/
structure Meets (entries : List HeardEntry) (current : Option Roster) (e : End) (k : Nat) (r r' : HeardEntry) :
    Prop where
  held     : (r.at e.other).state = .held
  faces    : (r.at e.other).facing = some e
  mem      : r' ∈ entries
  counts   : (r'.at e).count = k
  faced    : (r'.at e).facing = some e.other
  evidence : contradicts current r.id e.other r'.id = false ∧ contradicts current r'.id e r.id = false
  only     : ∀ c ∈ entries, (c.at e).count = k → (c.at e).facing = some e.other →
               contradicts current r.id e.other c.id = false → c = r'

/-- At `z`, reached by its end `e` as the `k`th station, a walk ends. -/
def Stops (entries : List HeardEntry) (e : End) (k : Nat) (z : HeardEntry) : Ending → Prop
  | .closed => (z.at e.other).isTrueEnd = true
  | .faultStopped => (z.at e.other).state = .fault
  | .gapStopped => (z.at e.other).state = .held ∧ (z.at e.other).facing = some e ∧
      ∀ c ∈ entries, (c.at e).count = k → (c.at e).facing ≠ some e.other

/-- Each of some stations, of different identities, is met from the one before it, and the last ends the walk. -/
structure Route (entries : List HeardEntry) (current : Option Roster) (e : End) (row : List HeardEntry)
    (ending : Ending) : Prop where
  distinct : (row.map HeardEntry.id).Nodup
  subset   : ∀ x ∈ row, x ∈ entries
  meets    : ∀ j r r', row[j]? = some r → row[j + 1]? = some r' → Meets entries current e (j + 1) r r'
  stops    : ∀ z, row.getLast? = some z → Stops entries e row.length z ending

theorem walkOn_stops {e : End} {z : HeardEntry} {ending : Ending} {fuel : Nat} {before : List Placed}
    (h : Stops entries e (before.length + 1) z ending) :
    walkOn entries current (fuel + 1) ⟨z, e⟩ before = .walk ⟨((⟨z, e⟩ : Placed) :: before).reverse, ending⟩ := by
  cases ending with
  | closed => exact walkOn_closed h
  | faultStopped => exact walkOn_fault h
  | gapStopped =>
    obtain ⟨hheld, hfaces, hnone⟩ := h
    have hnil : stepMatches entries current ⟨z, e⟩ before e = [] := List.eq_nil_iff_forall_not_mem.mpr fun c hc => by
      obtain ⟨hc, -, hcount, hfacing, -⟩ := mem_matchesOf.mp hc
      exact hnone c hc hcount hfacing
    rw [walkOn_held hheld hfaces, hnil]
    rfl

theorem walkOn_meets {e : End} {r r' : HeardEntry} {fuel : Nat} {before : List Placed} (hnodup : entries.Nodup)
    (h : Meets entries current e (before.length + 1) r r')
    (hnew : r'.id ∉ ((⟨r, e⟩ : Placed) :: before).map fun p => p.entry.id) :
    walkOn entries current (fuel + 1) ⟨r, e⟩ before = walkOn entries current fuel ⟨r', e⟩ (⟨r, e⟩ :: before) := by
  have hone : stepMatches entries current ⟨r, e⟩ before e = [r'] := by
    refine List.perm_singleton.mp ((List.perm_ext_iff_of_nodup (hnodup.filter _) (List.nodup_singleton r')).mpr ?_)
    intro c
    rw [← matchesOf, mem_matchesOf, List.mem_singleton]
    constructor
    · rintro ⟨hc, -, hcount, hfacing, hevidence, -⟩
      exact h.only c hc hcount hfacing hevidence
    · rintro rfl
      exact ⟨h.mem, hnew, h.counts, h.faced, h.evidence⟩
  rw [walkOn_held h.held h.faces, hone]
  rfl

theorem walkOn_route {e : End} {row : List HeardEntry} {ending : Ending} (hnodup : entries.Nodup)
    (h : Route entries current e row ending) {rest : List HeardEntry} {before : List HeardEntry} {last : HeardEntry}
    (hrow : row = before ++ last :: rest) {fuel : Nat} (hfuel : rest.length < fuel) :
    walkOn entries current fuel ⟨last, e⟩ (before.map (fun x => (⟨x, e⟩ : Placed))).reverse =
      .walk (along e row ending) := by
  obtain ⟨fuel, rfl⟩ := Nat.exists_eq_add_of_lt hfuel
  have hplaced : ((⟨last, e⟩ : Placed) :: (before.map (fun x => (⟨x, e⟩ : Placed))).reverse) =
      ((before ++ [last]).map (fun x => (⟨x, e⟩ : Placed))).reverse := by simp
  induction rest generalizing before last fuel with
  | nil =>
    have hstops := h.stops last (by simp [hrow])
    rw [walkOn_stops (by simpa [hrow] using hstops), hplaced, List.reverse_reverse, ← hrow, along]
  | cons r rest ih =>
    have hmeets := h.meets before.length last r (by simp [hrow]) (by simp [hrow])
    have hnew : r.id ∉ ((⟨last, e⟩ : Placed) :: (before.map (fun x => (⟨x, e⟩ : Placed))).reverse).map
        fun p => p.entry.id := by
      have hd := h.distinct
      rw [hrow, List.map_append, List.nodup_append] at hd
      obtain ⟨-, hd, hdisj⟩ := hd
      rw [hplaced]
      simp only [List.map_reverse, List.map_map, List.mem_reverse, List.mem_map, List.mem_append, List.mem_singleton,
        Function.comp]
      rintro ⟨x, hx | rfl, hid⟩
      · exact hdisj _ (List.mem_map_of_mem hx) r.id (by simp) hid
      · simp [hid] at hd
    have hlen : (r :: rest).length + fuel + 1 = (rest.length + fuel + 1) + 1 := by simp; omega
    rw [hlen, walkOn_meets hnodup (by simpa using hmeets) hnew, hplaced]
    exact ih (before := before ++ [last]) (by simp [hrow]) fuel (by omega) (by simp)

theorem Route.walkFrom_eq {e : End} {row : List HeardEntry} {ending : Ending} {x : HeardEntry}
    (h : Route entries current e row ending) (hnodup : entries.Nodup) (hx : row.head? = some x) :
    walkFrom entries current ⟨x, e⟩ = .walk (along e row ending) := by
  obtain ⟨rest, rfl⟩ := List.head?_eq_some_iff.mp hx
  have hlen := ((h.distinct.of_map _).subperm h.subset).length_le
  exact walkOn_route hnodup h (before := []) rfl hlen

/-! ## Where exactly two walks start -/

/-- Exactly two walks: along `near` from its end `e`, and along `far` from its other end. -/
structure TwoWalks (entries : List HeardEntry) (current : Option Roster) (e : End) (near far : List HeardEntry)
    (ending : Ending) : Prop where
  distinct : (entries.map HeardEntry.id).Nodup
  route    : Route entries current e near ending
  back     : Route entries current e.other far ending
  starts   : ∀ p, p ∈ trueEnds entries ↔
               (∃ x, near.head? = some x ∧ p = ⟨x, e⟩) ∨ (∃ y, far.head? = some y ∧ p = ⟨y, e.other⟩)

theorem along_ids {e : End} {row : List HeardEntry} {ending : Ending} :
    (along e row ending).ids = row.map HeardEntry.id := by
  simp [along, Walk.ids, Function.comp_def]

theorem along_start {e : End} {row : List HeardEntry} {ending : Ending} {x : HeardEntry} (h : row.head? = some x) :
    (along e row ending).start = some ⟨x, e⟩ := by
  simp [along, Walk.start, h]

theorem along_slots {e : End} {row : List HeardEntry} {ending : Ending} :
    (along e row ending).slots = row.map fun x => some ⟨x, e⟩ := by
  simp [along, Walk.slots]

theorem along_farSlots {e : End} {row : List HeardEntry} {ending : Ending} :
    (along e.other row ending).farSlots = row.reverse.map fun x => some ⟨x, e⟩ := by
  simp [along, Walk.farSlots, Function.comp_def, End.other_other, List.map_reverse]

theorem along_otherEnd {e : End} {row : List HeardEntry} {ending : Ending} {z : HeardEntry}
    (h : row.getLast? = some z) : (along e row ending).otherEnd = some (z.id, e.other) := by
  simp [along, Walk.otherEnd, h]

namespace TwoWalks

variable {e : End} {near far : List HeardEntry} {ending : Ending}

theorem symm (h : TwoWalks entries current e near far ending) : TwoWalks entries current e.other far near ending where
  distinct := h.distinct
  route := h.back
  back := (End.other_other e).symm ▸ h.route
  starts p := by rw [h.starts, End.other_other]; exact Or.comm

variable (h : TwoWalks entries current e near far ending)

include h

theorem nodup : entries.Nodup := h.distinct.of_map _

theorem walkFrom_cases {p : Placed} (hp : p ∈ trueEnds entries) :
    (near ≠ [] ∧ walkFrom entries current p = .walk (along e near ending)) ∨
      (far ≠ [] ∧ walkFrom entries current p = .walk (along e.other far ending)) := by
  obtain ⟨x, hx, rfl⟩ | ⟨y, hy, rfl⟩ := (h.starts p).mp hp
  · exact .inl ⟨fun hnil => by simp [hnil] at hx, h.route.walkFrom_eq h.nodup hx⟩
  · exact .inr ⟨fun hnil => by simp [hnil] at hy, h.back.walkFrom_eq h.nodup hy⟩

theorem clear : ∀ ids, .conflict ids ∉ allWalks entries current := by
  intro ids hids
  obtain ⟨p, hp, hwalk⟩ := List.mem_map.mp hids
  obtain ⟨-, hw⟩ | ⟨-, hw⟩ := h.walkFrom_cases hp <;> rw [hw] at hwalk <;> cases hwalk

theorem near_mem (hne : near ≠ []) : along e near ending ∈ walksOf (allWalks entries current) := by
  obtain ⟨x, rest, rfl⟩ := List.exists_cons_of_ne_nil hne
  exact mem_walks_iff.mpr ⟨⟨x, e⟩, (h.starts _).mpr (.inl ⟨x, rfl, rfl⟩), h.route.walkFrom_eq h.nodup rfl⟩

theorem mem_cases {w : Walk} (hw : w ∈ walksOf (allWalks entries current)) :
    (near ≠ [] ∧ w = along e near ending) ∨ (far ≠ [] ∧ w = along e.other far ending) := by
  obtain ⟨p, hp, hwalk⟩ := mem_walks_iff.mp hw
  refine (h.walkFrom_cases hp).imp ?_ ?_ <;>
    exact fun ⟨hne, hwalk'⟩ => ⟨hne, WalkResult.walk.inj (hwalk.symm.trans hwalk')⟩

theorem far_mem (hne : far ≠ []) : along e.other far ending ∈ walksOf (allWalks entries current) :=
  h.symm.near_mem hne

end TwoWalks

end Sys2Proof.Machine
end

section
/-! Rows of stations that stand alike, the walks along them, and the placement of whole and broken trains (R93 to
R101). -/

namespace Sys2Proof.Machine

/-- Stations whose ends `e` all face the first of them: each counts the carriages beyond its two ends and faces its
neighbours' ends. -/
structure Row (e : End) (row : List HeardEntry) (outerNear outerFar : Triple → Prop) : Prop where
  near : ∀ j x, row[j]? = some x →
           if j = 0 then outerNear (x.at e) else x.at e = ⟨.held, j, some e.other⟩
  far  : ∀ j x, row[j]? = some x →
           if j + 1 = row.length then outerFar (x.at e.other) else x.at e.other = ⟨.held, row.length - 1 - j, some e⟩

theorem Aligned.row {row : List HeardEntry} {outerA outerB : Triple → Prop} (h : Aligned row outerA outerB) :
    Row .a row outerA outerB := ⟨h.endsA, h.endsB⟩

theorem bounds_isTrueEnd {t : Triple} (h : t.bounds) : t.isTrueEnd = true := by
  obtain rfl | rfl | rfl := h <;> rfl

theorem bounds_facing {t : Triple} (h : t.bounds) : t.facing = none := by
  obtain rfl | rfl | rfl := h <;> rfl

/-- The triple of an end that reads a fault. -/
abbrev IsFault (t : Triple) : Prop := t = ⟨.fault, 0, none⟩

namespace Row

variable {e : End} {row : List HeardEntry} {outerNear outerFar : Triple → Prop}

theorem reverse (h : Row e row outerNear outerFar) : Row e.other row.reverse outerFar outerNear := by
  have hindex {j : Nat} {x : HeardEntry} (hx : row.reverse[j]? = some x) :
      j < row.length ∧ row[row.length - 1 - j]? = some x := by
    have hj := List.length_reverse ▸ (List.getElem?_eq_some_iff.mp hx).1
    exact ⟨hj, (List.getElem?_reverse hj).symm.trans hx⟩
  constructor
  · intro j x hx
    obtain ⟨hj, hx⟩ := hindex hx
    have hfar := h.far _ x hx
    rw [End.other_other]
    split_ifs with h0
    · rwa [if_pos (by omega)] at hfar
    · rw [if_neg (by omega)] at hfar
      rw [hfar]
      congr 1
      omega
  · intro j x hx
    obtain ⟨hj, hx⟩ := hindex hx
    have hnear := h.near _ x hx
    rw [End.other_other, List.length_reverse]
    split_ifs with h0
    · rwa [if_pos (by omega)] at hnear
    · rwa [if_neg (by omega)] at hnear

variable (h : Row e row outerNear outerFar)

include h

theorem near_inner {j : Nat} {x : HeardEntry} (hx : row[j + 1]? = some x) : x.at e = ⟨.held, j + 1, some e.other⟩ :=
  (if_neg (Nat.succ_ne_zero j)).mp (h.near _ x hx)

theorem far_inner {j : Nat} {x : HeardEntry} (hx : row[j]? = some x) (hj : j + 1 < row.length) :
    x.at e.other = ⟨.held, row.length - 1 - j, some e⟩ := (if_neg hj.ne).mp (h.far _ x hx)

theorem far_last {x : HeardEntry} (hx : row.getLast? = some x) : outerFar (x.at e.other) := by
  rw [List.getLast?_eq_getElem?] at hx
  have hlt := (List.getElem?_eq_some_iff.mp hx).1
  exact (if_pos (by omega)).mp (h.far _ x hx)

/-- A station of the row faces the one before it, or is the first. -/
theorem near_cases {x : HeardEntry} (hx : x ∈ row) :
    (row.head? = some x ∧ outerNear (x.at e)) ∨ ∃ j, row[j + 1]? = some x ∧ x.at e = ⟨.held, j + 1, some e.other⟩ := by
  obtain ⟨j, hj⟩ := List.mem_iff_getElem?.mp hx
  cases j with
  | zero => exact .inl ⟨List.head?_eq_getElem?.trans hj, (if_pos rfl).mp (h.near _ x hj)⟩
  | succ j => exact .inr ⟨j, hj, h.near_inner hj⟩

theorem isTrueEnd_iff (hb : ∀ t, outerNear t → t.isTrueEnd = true) {x : HeardEntry} (hx : x ∈ row) :
    (x.at e).isTrueEnd = true ↔ row.head? = some x := by
  constructor
  · intro htrue
    obtain ⟨hhead, -⟩ | ⟨j, -, hat⟩ := h.near_cases hx
    · exact hhead
    · rw [hat] at htrue
      cases htrue
  · intro hhead
    exact hb _ ((if_pos rfl).mp (h.near 0 x (List.head?_eq_getElem?.symm.trans hhead)))

theorem not_isTrueEnd (hf : ∀ t, outerNear t → IsFault t) {x : HeardEntry} (hx : x ∈ row) :
    ¬(x.at e).isTrueEnd = true := by
  obtain ⟨-, hfault⟩ | ⟨j, -, hat⟩ := h.near_cases hx
  · simp [hf _ hfault, Triple.isTrueEnd]
  · simp [hat, Triple.isTrueEnd]

/-- Only the station at index `k` counts `k` carriages and faces another. -/
theorem getElem?_of_count (hb : ∀ t, outerNear t → t.facing = none) {c : HeardEntry} (hc : c ∈ row) {k : Nat}
    (hcount : (c.at e).count = k) (hfacing : (c.at e).facing = some e.other) : row[k]? = some c := by
  obtain ⟨-, houter⟩ | ⟨j, hj, hat⟩ := h.near_cases hc
  · rw [hb _ houter] at hfacing
    cases hfacing
  · rw [hat] at hcount
    exact hcount ▸ hj

end Row

/-! ## Routes along rows -/

section Routes

variable {entries : List HeardEntry} {e : End} {row rest : List HeardEntry} {outerNear outerFar : Triple → Prop}

theorem contradicts_none (id : Identity) (e : End) (other : Identity) : contradicts none id e other = false := rfl

theorem contradicts_eq_false {cur : Roster} {id x : Identity} (h : cur.neighbour id e = some x) (other : Identity) :
    contradicts (some cur) id e other = false ↔ x = other := by
  simp [contradicts, h]

/-- With no roster current, the count leads from each station of a row to the next. -/
theorem Row.meets (h : Row e row outerNear outerFar) (hb : ∀ t, outerNear t → t.facing = none)
    (hsub : ∀ x ∈ entries, x ∈ row) {j : Nat} {r r' : HeardEntry} (hr : row[j]? = some r) (hr' : row[j + 1]? = some r')
    (hmem : r' ∈ entries) : Meets entries none e (j + 1) r r' := by
  have hlt := (List.getElem?_eq_some_iff.mp hr').1
  have hfar := h.far_inner hr hlt
  have hnear := h.near_inner hr'
  constructor
  case only =>
    intro c hc hcount hfacing _
    exact Option.some.inj ((h.getElem?_of_count hb (hsub c hc) hcount hfacing).symm.trans hr')
  case mem => exact hmem
  case evidence => exact ⟨rfl, rfl⟩
  all_goals simp only [hfar, hnear]

/-- The current roster leads from each station of a row to the next. -/
theorem Row.meets_evident (h : Row e row outerNear outerFar) (hnodup : (entries.map HeardEntry.id).Nodup) {cur : Roster}
    {j : Nat} {r r' : HeardEntry} (hr : row[j]? = some r) (hr' : row[j + 1]? = some r') (hmem : r' ∈ entries)
    (hon : cur.neighbour r.id e.other = some r'.id) (hback : cur.neighbour r'.id e = some r.id) :
    Meets entries (some cur) e (j + 1) r r' := by
  have hlt := (List.getElem?_eq_some_iff.mp hr').1
  have hfar := h.far_inner hr hlt
  have hnear := h.near_inner hr'
  constructor
  case only =>
    intro c hc _ _ hevidence
    exact List.inj_on_of_nodup_map hnodup hc hmem ((contradicts_eq_false hon _).mp hevidence).symm
  case mem => exact hmem
  case evidence => exact ⟨(contradicts_eq_false hon _).mpr rfl, (contradicts_eq_false hback _).mpr rfl⟩
  all_goals simp only [hfar, hnear]

theorem Row.route_closed (h : Row e row Triple.bounds Triple.bounds) (hnodup : (row.map HeardEntry.id).Nodup)
    (hmem : ∀ x, x ∈ entries ↔ x ∈ row) : Route entries none e row .closed where
  distinct := hnodup
  subset x := (hmem x).mpr
  meets _ _ r' hr hr' := h.meets (fun _ => bounds_facing) (fun x => (hmem x).mp) hr hr'
    ((hmem r').mpr (List.mem_of_getElem? hr'))
  stops _ hz := bounds_isTrueEnd (h.far_last hz)

/-- A walk ends at the gap before a silent station. -/
theorem Row.route_gap (h : Row e (row ++ rest) Triple.bounds outerFar) (hnodup : (row.map HeardEntry.id).Nodup)
    (hsub : ∀ x ∈ entries, x ∈ row ++ rest) (hrow : ∀ x ∈ row, x ∈ entries) (hne : rest ≠ [])
    (hsilent : ∀ x, rest.head? = some x → x ∉ entries) : Route entries none e row .gapStopped := by
  have hleft {j : Nat} {x : HeardEntry} (hx : row[j]? = some x) : (row ++ rest)[j]? = some x := by
    rw [List.getElem?_append_left (List.getElem?_eq_some_iff.mp hx).1, hx]
  refine ⟨hnodup, hrow, fun j r r' hr hr' => ?_, fun z hz => ?_⟩
  · exact h.meets (fun _ => bounds_facing) hsub (hleft hr) (hleft hr') (hrow r' (List.mem_of_getElem? hr'))
  · rw [List.getLast?_eq_getElem?] at hz
    have hlt := (List.getElem?_eq_some_iff.mp hz).1
    have hrest := List.length_pos_iff.mpr hne
    have hfar := h.far_inner (hleft hz) (by rw [List.length_append]; omega)
    refine ⟨by rw [hfar], by rw [hfar], fun c hc hcount hfacing => ?_⟩
    have hat := h.getElem?_of_count (fun _ => bounds_facing) (hsub c hc) hcount hfacing
    rw [List.getElem?_append_right (Nat.le_refl _), Nat.sub_self, ← List.head?_eq_getElem?] at hat
    exact hsilent c hat hc

/-- A walk ends at the coupler that reads a fault, the current roster leading to it. -/
theorem Row.route_fault (h : Row e row outerNear IsFault) (hrow : (row.map HeardEntry.id).Nodup)
    (hnodup : (entries.map HeardEntry.id).Nodup) (hsub : ∀ x ∈ row, x ∈ entries) {cur : Roster}
    (hevidence : ∀ j r r', row[j]? = some r → row[j + 1]? = some r' →
      cur.neighbour r.id e.other = some r'.id ∧ cur.neighbour r'.id e = some r.id) :
    Route entries (some cur) e row .faultStopped where
  distinct := hrow
  subset := hsub
  meets j r r' hr hr' := h.meets_evident hnodup hr hr' (hsub r' (List.mem_of_getElem? hr'))
    (hevidence j r r' hr hr').1 (hevidence j r r' hr hr').2
  stops _ hz := congrArg Triple.state (h.far_last hz)

end Routes

/-! ## The two walks of a train -/

section Trains

variable {entries : List HeardEntry} {current : Option Roster} {e : End} {near far left gap right : List HeardEntry}
  {ending : Ending}

theorem TwoWalks.of_routes (hnodup : (entries.map HeardEntry.id).Nodup) (hroute : Route entries current e near ending)
    (hback : Route entries current e.other far ending)
    (hnear : ∀ x ∈ entries, (x.at e).isTrueEnd = true ↔ near.head? = some x)
    (hfar : ∀ x ∈ entries, (x.at e.other).isTrueEnd = true ↔ far.head? = some x) :
    TwoWalks entries current e near far ending := by
  refine ⟨hnodup, hroute, hback, fun p => ?_⟩
  rw [mem_trueEnds]
  obtain ⟨x, e'⟩ := p
  constructor
  · rintro ⟨hx, htrue⟩
    obtain rfl | rfl := End.eq_or_eq_other e e'
    · exact .inl ⟨x, (hnear x hx).mp htrue, rfl⟩
    · exact .inr ⟨x, (hfar x hx).mp htrue, rfl⟩
  · rintro (⟨y, hy, hp⟩ | ⟨y, hy, hp⟩) <;> obtain ⟨rfl, rfl⟩ := Placed.mk.inj hp
    · have hmem := hroute.subset x (List.mem_of_mem_head? hy)
      exact ⟨hmem, (hnear x hmem).mpr hy⟩
    · have hmem := hback.subset x (List.mem_of_mem_head? hy)
      exact ⟨hmem, (hfar x hmem).mpr hy⟩

/-- A whole train has one walk from each extremity, over all of it. -/
theorem Row.twoWalks_closed (h : Row e near Triple.bounds Triple.bounds) (hnodup : (entries.map HeardEntry.id).Nodup)
    (hrow : (near.map HeardEntry.id).Nodup) (hmem : ∀ x, x ∈ entries ↔ x ∈ near) :
    TwoWalks entries none e near near.reverse .closed := by
  have hmem' (x : HeardEntry) : x ∈ entries ↔ x ∈ near.reverse := (hmem x).trans List.mem_reverse.symm
  refine TwoWalks.of_routes hnodup (h.route_closed hrow hmem)
    (h.reverse.route_closed (by rwa [List.map_reverse, List.nodup_reverse]) hmem') (fun x hx => ?_) (fun x hx => ?_)
  · exact h.isTrueEnd_iff (fun _ => bounds_isTrueEnd) ((hmem x).mp hx)
  · exact h.reverse.isTrueEnd_iff (fun _ => bounds_isTrueEnd) ((hmem' x).mp hx)

/-- On one side of a gap that begins with a silent station: the walk up to it, and the true end it starts from. -/
theorem Row.gap_side {rest : List HeardEntry} (h : Row e (near ++ rest) Triple.bounds Triple.bounds)
    (hnodup : ((near ++ rest).map HeardEntry.id).Nodup) (hsub : ∀ x ∈ entries, x ∈ near ++ rest)
    (hnear : ∀ x ∈ near, x ∈ entries) (hne : rest ≠ []) (hsilent : ∀ x, rest.head? = some x → x ∉ entries) :
    Route entries none e near .gapStopped ∧
      ∀ x ∈ entries, (x.at e).isTrueEnd = true ↔ near.head? = some x := by
  have hnodup : (near.map HeardEntry.id).Nodup := by
    rw [List.map_append] at hnodup
    exact hnodup.of_append_left
  refine ⟨h.route_gap hnodup hsub hnear hne hsilent, fun x hx => ?_⟩
  rw [h.isTrueEnd_iff (fun _ => bounds_isTrueEnd) (hsub x hx)]
  cases near with
  | nil => exact iff_of_false (fun hhead => hsilent x hhead hx) nofun
  | cons y near => exact Iff.rfl

/-- A train whose gap is silent at both its ends has one walk from each extremity that is heard, up to the gap. -/
theorem Row.twoWalks_gap (h : Row e (left ++ gap ++ right) Triple.bounds Triple.bounds)
    (hnodup : (entries.map HeardEntry.id).Nodup) (hrow : ((left ++ gap ++ right).map HeardEntry.id).Nodup)
    (hsub : ∀ x ∈ entries, x ∈ left ++ gap ++ right) (hleft : ∀ x ∈ left, x ∈ entries)
    (hright : ∀ x ∈ right, x ∈ entries) (hgap : gap ≠ [])
    (hsilent : ∀ x, gap.head? = some x ∨ gap.getLast? = some x → x ∉ entries) :
    TwoWalks entries none e left right.reverse .gapStopped := by
  have hreverse : (left ++ gap ++ right).reverse = right.reverse ++ (gap.reverse ++ left.reverse) := by simp
  have hrow' := List.nodup_reverse.mpr hrow
  have hback := h.reverse
  have hsub' (x : HeardEntry) (hx : x ∈ entries) := List.mem_reverse.mpr (hsub x hx)
  rw [← List.map_reverse, hreverse] at hrow'
  rw [hreverse] at hback
  simp only [hreverse] at hsub'
  rw [List.append_assoc] at h hrow
  simp only [List.append_assoc] at hsub
  obtain ⟨hroute, hnear⟩ := h.gap_side hrow hsub hleft (by simp [hgap]) fun x hx =>
    hsilent x (.inl (by rwa [List.head?_append_of_ne_nil _ hgap] at hx))
  obtain ⟨hroute', hfar⟩ := hback.gap_side hrow' hsub' (fun x hx => hright x (List.mem_reverse.mp hx)) (by simp [hgap])
    fun x hx => hsilent x (.inr (by
      rwa [List.head?_append_of_ne_nil _ (by simpa using hgap), List.head?_reverse] at hx))
  exact TwoWalks.of_routes hnodup hroute hroute' hnear hfar

/-- On one side of a coupler that reads a fault, the true ends are those of the extremity. -/
theorem Row.fault_side (h : Row e left Triple.bounds IsFault) (h' : Row e right IsFault Triple.bounds)
    (hsub : ∀ x ∈ entries, x ∈ left ++ right) : ∀ x ∈ entries, (x.at e).isTrueEnd = true ↔ left.head? = some x := by
  intro x hx
  obtain hl | hr := List.mem_append.mp (hsub x hx)
  · exact h.isTrueEnd_iff (fun _ => bounds_isTrueEnd) hl
  · refine iff_of_false (h'.not_isTrueEnd (fun _ => id) hr) fun hhead => ?_
    have hfirst := h.isTrueEnd_iff (fun _ => bounds_isTrueEnd) (List.mem_of_mem_head? hhead)
    exact h'.not_isTrueEnd (fun _ => id) hr (hfirst.mpr hhead)

/-- A train whose coupler reads a fault from both sides has one walk from each extremity, up to the coupler, where the
current roster has its stations in this order. -/
theorem Row.twoWalks_fault (h : Row e left Triple.bounds IsFault) (h' : Row e right IsFault Triple.bounds)
    (hnodup : (entries.map HeardEntry.id).Nodup) (hrow : ((left ++ right).map HeardEntry.id).Nodup)
    (hmem : ∀ x, x ∈ entries ↔ x ∈ left ++ right) {cur : Roster}
    (hevidence : ∀ j r r', (left ++ right)[j]? = some r → (left ++ right)[j + 1]? = some r' →
      cur.neighbour r.id e.other = some r'.id ∧ cur.neighbour r'.id e = some r.id) :
    TwoWalks entries (some cur) e left right.reverse .faultStopped := by
  rw [List.map_append, List.nodup_append] at hrow
  obtain ⟨hleft, hright, -⟩ := hrow
  have hroute : Route entries (some cur) e left .faultStopped :=
    h.route_fault hleft hnodup (fun x hx => (hmem x).mpr (List.mem_append_left _ hx)) fun j r r' hr hr' =>
      hevidence j r r' (by rw [List.getElem?_append_left (List.getElem?_eq_some_iff.mp hr).1, hr])
        (by rw [List.getElem?_append_left (List.getElem?_eq_some_iff.mp hr').1, hr'])
  have hroute' : Route entries (some cur) e.other right.reverse .faultStopped := by
    refine h'.reverse.route_fault (by rwa [List.map_reverse, List.nodup_reverse]) hnodup
      (fun x hx => (hmem x).mpr (List.mem_append_right _ (List.mem_reverse.mp hx))) fun j r r' hr hr' => ?_
    have hlt := (List.getElem?_eq_some_iff.mp hr').1
    rw [List.length_reverse] at hlt
    rw [List.getElem?_reverse (by omega)] at hr hr'
    have hnext : right.length - 1 - j = right.length - 1 - (j + 1) + 1 := by omega
    rw [hnext] at hr
    have hat {k : Nat} {x : HeardEntry} (hx : right[k]? = some x) : (left ++ right)[left.length + k]? = some x := by
      rw [List.getElem?_append_right (by omega), Nat.add_sub_cancel_left, hx]
    obtain ⟨hon, hback⟩ := hevidence _ r' r (hat hr') (hat hr)
    rw [End.other_other]
    exact ⟨hback, hon⟩
  refine TwoWalks.of_routes hnodup hroute hroute' (h.fault_side h' fun x => (hmem x).mp)
    (h'.reverse.fault_side h.reverse fun x hx => ?_)
  rw [← List.reverse_append]
  exact List.mem_reverse.mpr ((hmem x).mp hx)

end Trains

end Sys2Proof.Machine
end

section
/-! The placement of whole and broken trains (R91 to R101). -/

namespace Sys2Proof.Machine

/-! ## The own run where exactly two walks start -/

namespace TwoWalks

variable {entries : List HeardEntry} {current : Option Roster} {e : End} {near far : List HeardEntry}
  {ending : Ending} (h : TwoWalks entries current e near far ending)

include h

theorem filter_near {f : Walk → Bool} (hne : near ≠ []) (hnear : f (along e near ending) = true)
    (hfar : f (along e.other far ending) = false) :
    (walksOf (allWalks entries current)).filter f = [along e near ending] := by
  refine filter_eq_singleton (walks_nodup h.nodup) fun w => ⟨fun ⟨hw, hf⟩ => ?_, ?_⟩
  · obtain ⟨-, rfl⟩ | ⟨-, rfl⟩ := h.mem_cases hw
    · rfl
    · rw [hfar] at hf
      cases hf
  · rintro rfl
    exact ⟨h.near_mem hne, hnear⟩

theorem filter_far {f : Walk → Bool} (hne : far ≠ []) (hnear : f (along e near ending) = false)
    (hfar : f (along e.other far ending) = true) :
    (walksOf (allWalks entries current)).filter f = [along e.other far ending] :=
  h.symm.filter_near hne hfar (by rwa [End.other_other])

theorem filter_nil {f : Walk → Bool} (hnear : f (along e near ending) = false)
    (hfar : far ≠ [] → f (along e.other far ending) = false) :
    (walksOf (allWalks entries current)).filter f = [] := by
  refine List.filter_eq_nil_iff.mpr fun w hw => ?_
  obtain ⟨-, rfl⟩ | ⟨hne, rfl⟩ := h.mem_cases hw
  · simp [hnear]
  · simp [hfar hne]

variable {own : Identity}

theorem minesOf_near (hown : own ∈ near.map HeardEntry.id) (hfar : own ∉ far.map HeardEntry.id) :
    minesOf (walksOf (allWalks entries current)) own = [along e near ending] := by
  refine h.filter_near (fun hnil => by simp [hnil] at hown) ?_ ?_
  · rwa [along_ids, List.contains_iff_mem]
  · rwa [along_ids, ← Bool.not_eq_true, List.contains_iff_mem]

theorem minesOf_none (hnear : own ∉ near.map HeardEntry.id) (hfar : own ∉ far.map HeardEntry.id) :
    minesOf (walksOf (allWalks entries current)) own = [] := by
  refine h.filter_nil ?_ fun _ => ?_
  · rwa [along_ids, ← Bool.not_eq_true, List.contains_iff_mem]
  · rwa [along_ids, ← Bool.not_eq_true, List.contains_iff_mem]

end TwoWalks

theorem shareEntry_along {e e' : End} {near far : List HeardEntry} {ending ending' : Ending}
    (hdisj : ∀ id ∈ near.map HeardEntry.id, id ∉ far.map HeardEntry.id) :
    shareEntry (along e near ending) (along e' far ending') = false := by
  rw [shareEntry, List.any_eq_false, along_ids, along_ids]
  intro id hid
  rw [List.contains_iff_mem]
  exact hdisj id hid

theorem sameStart_self {e : End} {row : List HeardEntry} {ending : Ending} (hne : row ≠ []) :
    sameStart (along e row ending) (along e row ending) = true := by
  obtain ⟨x, rest, rfl⟩ := List.exists_cons_of_ne_nil hne
  simp [sameStart, along, Walk.start]

theorem sameStart_along {e : End} {near far : List HeardEntry} {ending ending' : Ending} :
    sameStart (along e near ending) (along e.other far ending') = false := by
  cases near with
  | nil => rfl
  | cons x near =>
    cases far with
    | nil => rfl
    | cons y far => simp [sameStart, along, Walk.start]

theorem impliedLength_along {e : End} {row : List HeardEntry} {ending : Ending} {x : HeardEntry}
    (h : row.head? = some x) : impliedLength (along e row ending) = (x.at e.other).count + 1 := by
  rw [impliedLength, along_start h]

/-- The slots of some stations that face the reference end by their ends `e`. -/
def slotsFrom (e : End) (row : List HeardEntry) : List RunSlot := row.map fun x => some ⟨x, e⟩

theorem along_placed_length {e : End} {row : List HeardEntry} {ending : Ending} :
    (along e row ending).placed.length = row.length := List.length_map _

theorem along_ending {e : End} {row : List HeardEntry} {ending : Ending} : (along e row ending).ending = ending := rfl

theorem decisive_ne_nil {rs : List RunResult} (h : rs ≠ []) : decisive rs ≠ [] := by
  unfold decisive
  split
  · exact h
  case h_2 hne => exact hne

section OwnRuns

variable {entries : List HeardEntry} {current : Option Roster} {e : End} {near far : List HeardEntry}

/-- Two walks that a gap parts are joined, with SILENT positions between them (R98). -/
theorem TwoWalks.gapRun_joined (h : TwoWalks entries current e near far .gapStopped) {n : Nat} (hnear : near ≠ [])
    (hfar : far ≠ []) (hdisj : ∀ id ∈ near.map HeardEntry.id, id ∉ far.map HeardEntry.id)
    (hlen : impliedLength (along e near .gapStopped) = n) (hlen' : impliedLength (along e.other far .gapStopped) = n)
    (hroom : near.length + far.length < n) (hmax : n ≤ 16) :
    gapRun (walksOf (allWalks entries current)) (along e near .gapStopped) =
      .run (slotsFrom e near ++ List.replicate (n - near.length - far.length) none ++ slotsFrom e far.reverse)
        false := by
  unfold gapRun
  dsimp only
  rw [h.filter_far hfar (by simp [sameStart_self hnear])
    (by simp [sameStart_along, shareEntry_along hdisj, hlen, hlen', along_placed_length, hroom, hmax, along_ending])]
  dsimp only
  rw [hlen, along_placed_length, along_placed_length, along_slots, along_farSlots, slotsFrom, slotsFrom]

/-- A walk that a gap stops is the own run by itself, with SPLIT, where no other walk answers it (R98). -/
theorem TwoWalks.gapRun_alone (h : TwoWalks entries current e near [] .gapStopped) (hnear : near ≠ []) :
    gapRun (walksOf (allWalks entries current)) (along e near .gapStopped) = .run (slotsFrom e near) true := by
  unfold gapRun
  dsimp only
  rw [h.filter_nil (by simp [sameStart_self hnear]) fun hne => absurd rfl hne]
  dsimp only
  rw [along_slots, slotsFrom]

/-- Two walks that a fault coupler parts are joined (R99). -/
theorem TwoWalks.faultRun_joined (h : TwoWalks entries current e near far .faultStopped) {own : Identity}
    (hnear : near ≠ []) (hfar : far ≠ []) (hdisj : ∀ id ∈ near.map HeardEntry.id, id ∉ far.map HeardEntry.id)
    (hown : own ∉ far.map HeardEntry.id) :
    faultRun (walksOf (allWalks entries current)) own (along e near .faultStopped) =
      .run (slotsFrom e near ++ slotsFrom e far.reverse) false := by
  unfold faultRun
  dsimp only
  rw [h.filter_far hfar (by simp [sameStart_self hnear]) ?_]
  · dsimp only
    rw [along_slots, along_farSlots, slotsFrom, slotsFrom]
  · rw [along_ids, ← List.contains_iff_mem, Bool.not_eq_true] at *
    rw [sameStart_along, shareEntry_along hdisj]
    simpa [along_ending] using hown

/-- A closed walk over a whole row, mirrored from its other extremity (R97). -/
theorem TwoWalks.closedRun_along (h : TwoWalks entries current e near far .closed) (hrev : far.reverse = near)
    {p q : HeardEntry} (hp : near.head? = some p) (hq : far.head? = some q) :
    closedRun (walksOf (allWalks entries current)) (along e near .closed) =
      .run (if (if p.id = q.id then decide (e = .a) else decide (p.id.toNat < q.id.toNat)) then slotsFrom e near
        else slotsFrom e.other far) false := by
  have hq' : near.getLast? = some q := by rw [← hrev, List.getLast?_reverse, hq]
  have hpaired : (along e near .closed).PairedWith (walksOf (allWalks entries current))
      (along e.other far .closed) := by
    refine ⟨h.far_mem fun hnil => by simp [hnil] at hq, ?_⟩
    rw [along_start hq, along_otherEnd hq']
    rfl
  have hmirror : (along e near .closed).MirroredBy (along e.other far .closed) := by
    refine ⟨rfl, ?_⟩
    rw [along_ids, along_ids, ← List.map_reverse, hrev]
  rw [closedRun_eq_run (startingAt_of_paired h.distinct hpaired) hmirror (along_start hp) (along_start hq),
    along_slots, along_slots, slotsFrom, slotsFrom]

end OwnRuns

/-! ## Full placement of a table -/

section Placing

variable {table row : List HeardEntry} {outerA outerB : Triple → Prop} {epoch : Epoch} {own : Identity}

theorem Aligned.unmarked (h : Aligned row outerA outerB) : ∀ x ∈ row, ¬(x.offer.endA.saturated = true ∨
    x.offer.endB.saturated = true) := by
  intro x hx
  obtain ⟨ha, hb⟩ := h.marks x hx
  simp [ha, hb]

variable {current : Option Roster} {e : End} {near far : List HeardEntry} {ending : Ending}

theorem TwoWalks.place_eq (h : TwoWalks (sortById table) current e near far ending) (hmarks : Unmarked table)
    {r : RunResult} (hrun : ownRuns (walksOf (allWalks (sortById table) current)) own = [r]) :
    place table false current epoch own = placementOfRun epoch own r.forget := by
  rw [Sys2Proof.Machine.place_eq hmarks h.clear, ownRunFull_single hrun]

/-- A station of one side of a gap finds the run of both sides, or of its own where the other is silent. -/
theorem TwoWalks.place_gap (h : TwoWalks (sortById table) current e near far .gapStopped) (hmarks : Unmarked table)
    {slots : List RunSlot} {split : Bool} (hown : own ∈ near.map HeardEntry.id) (hfar : own ∉ far.map HeardEntry.id)
    (hrun : gapRun (walksOf (allWalks (sortById table) current)) (along e near .gapStopped) = .run slots split) :
    place table false current epoch own = .success (buildRoster false epoch own slots split) := by
  rw [h.place_eq hmarks (ownRuns_gap (h.minesOf_near hown hfar) rfl), hrun]
  rfl

/-- A station on neither walk is unplaced. -/
theorem TwoWalks.place_unplaced (h : TwoWalks (sortById table) current e near far ending) (hmarks : Unmarked table)
    (hnear : own ∉ near.map HeardEntry.id) (hfar : own ∉ far.map HeardEntry.id) :
    place table false current epoch own = .unplaced := by
  rw [h.place_eq hmarks (ownRuns_none (h.minesOf_none hnear hfar))]
  rfl

/-- A station of one side of a fault coupler finds the run of both sides. -/
theorem TwoWalks.place_fault (h : TwoWalks (sortById table) current e near far .faultStopped) (hmarks : Unmarked table)
    (hown : own ∈ near.map HeardEntry.id) (hne : far ≠ [])
    (hdisj : ∀ id ∈ near.map HeardEntry.id, id ∉ far.map HeardEntry.id) :
    place table false current epoch own =
      .success (buildRoster false epoch own (slotsFrom e near ++ slotsFrom e far.reverse) false) := by
  have hfar := hdisj own hown
  rw [h.place_eq hmarks (ownRuns_fault (h.minesOf_near hown hfar) rfl),
    h.faultRun_joined (fun hnil => by simp [hnil] at hown) hne hdisj hfar]
  rfl

/-- Where two closed walks hold the own entry and give the same run, it is the own run. -/
theorem TwoWalks.place_closed (h : TwoWalks (sortById table) current e near far .closed) (hmarks : Unmarked table)
    (hown : own ∈ near.map HeardEntry.id) {slots : List RunSlot} {split : Bool}
    (hnear : closedRun (walksOf (allWalks (sortById table) current)) (along e near .closed) = .run slots split)
    (hfar : closedRun (walksOf (allWalks (sortById table) current)) (along e.other far .closed) = .run slots split) :
    place table false current epoch own = .success (buildRoster false epoch own slots split) := by
  have hmem : along e near .closed ∈ closedOf (walksOf (allWalks (sortById table) current)) own := by
    refine List.mem_filter.mpr ⟨mem_minesOf.mpr ⟨h.near_mem fun hnil => by simp [hnil] at hown, ?_⟩, rfl⟩
    rwa [along_ids]
  have hall : ∀ r ∈ ownRuns (walksOf (allWalks (sortById table) current)) own, r = .run slots split := by
    intro r hr
    rw [ownRuns_closed (List.ne_nil_of_mem hmem)] at hr
    obtain ⟨w, hw, rfl⟩ := List.mem_map.mp (mem_of_mem_decisive hr)
    obtain ⟨-, rfl⟩ | ⟨-, rfl⟩ := h.mem_cases (List.mem_of_mem_filter (List.mem_of_mem_filter hw))
    · exact hnear
    · exact hfar
  have hne : ownRuns (walksOf (allWalks (sortById table) current)) own ≠ [] := by
    rw [ownRuns_closed (List.ne_nil_of_mem hmem)]
    exact decisive_ne_nil (List.ne_nil_of_mem (List.mem_map_of_mem hmem))
  rw [Sys2Proof.Machine.place_eq hmarks h.clear, ownRunFull_const hne fun r hr => congrArg RunResult.forget (hall r hr)]
  rfl

end Placing

/-! ## Whole trains -/

/-- Of different stations, the first and the last are one only where there is but one. -/
theorem length_eq_one_iff_of_nodup {row : List HeardEntry} (hnodup : (row.map HeardEntry.id).Nodup) {p q : HeardEntry}
    (hp : row.head? = some p) (hq : row.getLast? = some q) : row.length = 1 ↔ p.id = q.id := by
  match row with
  | [x] =>
    obtain rfl := Option.some.inj (hp.symm.trans hq)
    exact iff_of_true rfl rfl
  | x :: y :: rest =>
    refine iff_of_false (by simp) fun hid => ?_
    obtain rfl := Option.some.inj hp
    rw [List.getLast?_cons_cons] at hq
    exact (List.nodup_cons.mp hnodup).1 (hid ▸ List.mem_map_of_mem (List.mem_of_getLast? hq))

/-- Settles O45: the walks from both extremities are closed and mirror each other. -/
theorem alignedTrainIsPlaced : Obligations.AlignedTrainIsPlaced := by
  intro train table epoch own p q _ hnodup hown hperm hp hq haligned
  have hmarks : Unmarked table := fun ⟨x, hx, hmark⟩ => haligned.unmarked x (hperm.mem_iff.mp hx) hmark
  have hsorted := (sortById_perm table).trans hperm
  have hids := ((hsorted.map HeardEntry.id).nodup_iff).mpr hnodup
  have h := haligned.row.twoWalks_closed hids hnodup fun x => hsorted.mem_iff
  have hq' : train.reverse.head? = some q := List.head?_reverse.trans hq
  have hlone := length_eq_one_iff_of_nodup hnodup hp hq
  refine h.place_closed hmarks hown ((h.closedRun_along (List.reverse_reverse _) hp hq').trans ?_)
    ((h.symm.closedRun_along rfl hq' hp).trans ?_)
  all_goals refine congrArg (RunResult.run · false) ?_
  · by_cases hid : p.id = q.id
    · rw [if_pos hid]
      exact (if_pos (.inl (hlone.mpr hid))).symm
    · rw [if_neg hid]
      refine if_congr ?_ rfl rfl
      rw [decide_eq_true_iff, hlone]
      exact (or_iff_right hid).symm
  · by_cases hid : p.id = q.id
    · rw [if_pos hid.symm]
      exact (if_pos (.inl (hlone.mpr hid))).symm
    · have hne : p.id.toNat ≠ q.id.toNat := fun heq => hid (BitVec.eq_of_toNat_eq heq)
      rw [if_neg (Ne.symm hid)]
      obtain hlt | hgt := Nat.lt_or_gt_of_ne hne
      · exact (if_neg (by simpa using hlt.le)).trans (if_pos (.inr hlt)).symm
      · exact (if_pos (decide_eq_true hgt)).trans (if_neg (not_or.mpr ⟨mt hlone.mp hid, hgt.not_gt⟩)).symm

/-! ## Broken trains -/

theorem findHeard_eq {l : List RosterEntry} (hall : ∀ x ∈ l, ∃ id c g m, x = .heard id .forward c g m)
    (hnodup : (l.map RosterEntry.id?).Nodup) {i : Nat} {id : Identity} (hi : l[i]?.bind RosterEntry.id? = some id)
    (k : Nat) : findHeard id l k = some (k + i, .forward) := by
  induction l generalizing i k with
  | nil => cases hi
  | cons x xs ih =>
    obtain ⟨id', c, g, m, rfl⟩ := hall x List.mem_cons_self
    obtain ⟨hnew, hrest⟩ := List.nodup_cons.mp hnodup
    cases i with
    | zero => exact if_pos (Option.some.inj hi)
    | succ i =>
      have hne : id' ≠ id := by
        rintro rfl
        obtain ⟨y, hy, hid⟩ := Option.bind_eq_some_iff.mp hi
        exact hnew (List.mem_map.mpr ⟨y, List.mem_of_getElem? hy, hid⟩)
      rw [findHeard, if_neg hne, ih (fun y hy => hall y (List.mem_cons_of_mem _ hy)) hrest hi]
      congr 2
      omega

/-- The evidence of a roster that has some stations in their order, all FORWARD (R94). -/
theorem neighbours_of_roster {cur : Roster} {row : List HeardEntry} (hnodup : (row.map HeardEntry.id).Nodup)
    (hids : cur.entries.map RosterEntry.id? = row.map fun x => some x.id)
    (hall : ∀ x ∈ cur.entries, ∃ id c g m, x = .heard id .forward c g m) {j : Nat} {r r' : HeardEntry}
    (hr : row[j]? = some r) (hr' : row[j + 1]? = some r') :
    cur.neighbour r.id .b = some r'.id ∧ cur.neighbour r'.id .a = some r.id := by
  have hdistinct : (cur.entries.map RosterEntry.id?).Nodup := by
    have hmap : (row.map fun x => some x.id) = (row.map HeardEntry.id).map some := by simp
    rw [hids, hmap]
    exact hnodup.map (Option.some_injective _)
  have hat {k : Nat} {x : HeardEntry} (hx : row[k]? = some x) : cur.entries[k]?.bind RosterEntry.id? = some x.id := by
    have hk := congrArg (·[k]?) hids
    simp only [List.getElem?_map, hx, Option.map_some] at hk
    obtain ⟨y, hy, hid⟩ := Option.map_eq_some_iff.mp hk
    rw [hy]
    exact hid
  have hidAt {k : Nat} {x : HeardEntry} (hx : row[k]? = some x) : cur.idAt (k + 1) = some x.id := by
    rw [Roster.idAt, if_neg (Nat.succ_ne_zero k)]
    exact hat hx
  constructor
  · rw [Roster.neighbour, findHeard_eq hall hdistinct (hat hr), Nat.add_comm 1 j]
    exact hidAt hr'
  · rw [Roster.neighbour, findHeard_eq hall hdistinct (hat hr'), Nat.add_comm 1 (j + 1)]
    exact hidAt hr

section Gap

variable {table left gap right : List HeardEntry} {e : End} {epoch : Epoch} {own : Identity}

/-- At the first station of a train, a walk on one side of a gap counts the carriages of the whole. -/
theorem Row.impliedLength_eq (h : Row e (left ++ gap ++ right) Triple.bounds Triple.bounds) (hgap : gap ≠ [])
    (hleft : left ≠ []) {ending : Ending} :
    impliedLength (along e left ending) = (left ++ gap ++ right).length := by
  obtain ⟨x, rest, rfl⟩ := List.exists_cons_of_ne_nil hleft
  have hpos := List.length_pos_iff.mpr hgap
  have hlen : ((x :: rest) ++ gap ++ right).length = rest.length + 1 + gap.length + right.length := by
    simp only [List.length_append, List.length_cons]
  have hfar := h.far_inner (j := 0) (x := x) rfl (by omega)
  rw [impliedLength_along rfl, hfar]
  show _ - 1 - 0 + 1 = _
  omega

/-- A station on one side of a gap finds the stations of both sides with the gap between them, or its own side alone
where the gap reaches to the extremity (R98). -/
theorem Row.place_gap (h : Row e (left ++ gap ++ right) Triple.bounds Triple.bounds)
    (hwalks : TwoWalks (sortById table) none e left right.reverse .gapStopped) (hmarks : Unmarked table)
    (hmax : (left ++ gap ++ right).length ≤ 16) (hgap : gap ≠ [])
    (hdisj : ∀ id ∈ left.map HeardEntry.id, id ∉ right.map HeardEntry.id) (hown : own ∈ left.map HeardEntry.id) :
    (right ≠ [] → place table false none epoch own = .success (buildRoster false epoch own
      (slotsFrom e left ++ List.replicate gap.length none ++ slotsFrom e right) false)) ∧
    (right = [] → place table false none epoch own = .success (buildRoster false epoch own (slotsFrom e left) true)) := by
  have hleft : left ≠ [] := fun hnil => by simp [hnil] at hown
  have hdisj' : ∀ id ∈ left.map HeardEntry.id, id ∉ right.reverse.map HeardEntry.id := by
    simpa only [List.map_reverse, List.mem_reverse] using hdisj
  constructor
  · intro hright
    have hpos := List.length_pos_iff.mpr hgap
    have hlen : (left ++ gap ++ right).length = left.length + gap.length + right.length := by
      simp only [List.length_append]
    have hreverse : (left ++ gap ++ right).reverse = right.reverse ++ gap.reverse ++ left.reverse := by simp
    have hback : impliedLength (along e.other right.reverse .gapStopped) = (left ++ gap ++ right).length := by
      rw [Row.impliedLength_eq (hreverse ▸ h.reverse) (by simpa using hgap) (by simpa using hright), ← hreverse,
        List.length_reverse]
    have hrun := hwalks.gapRun_joined hleft (by simpa using hright) hdisj' (h.impliedLength_eq hgap hleft) hback
      (by rw [List.length_reverse]; omega) hmax
    have hsilent : (left ++ gap ++ right).length - left.length - right.length = gap.length := by omega
    rw [List.length_reverse, hsilent, List.reverse_reverse] at hrun
    exact hwalks.place_gap hmarks hown (hdisj' own hown) hrun
  · rintro rfl
    exact hwalks.place_gap hmarks hown (hdisj' own hown) (hwalks.gapRun_alone hleft)

end Gap

/-- Two stations of a row whose outer end reads a fault and two of another behind it are a conflict where no roster is
current: the second station of each matches. -/
theorem place_fault_conflict {table left right : List HeardEntry} {epoch : Epoch} {own : Identity}
    (hleft : Row .a left Triple.bounds IsFault) (hright : Row .a right IsFault Triple.bounds)
    (hnodup : ((left ++ right).map HeardEntry.id).Nodup) (hmem : ∀ x, x ∈ sortById table ↔ x ∈ left ++ right)
    (hmarks : Unmarked table) (hl : 2 ≤ left.length) (hr : 2 ≤ right.length) :
    place table false none epoch own = .conflict := by
  match left, right with
  | l₀ :: l₁ :: ls, r₀ :: r₁ :: rs =>
    have hfar := hleft.far_inner (j := 0) (x := l₀) rfl hl
    have hl₁ := hleft.near_inner (j := 0) (x := l₁) rfl
    have hr₁ := hright.near_inner (j := 0) (x := r₁) rfl
    have hhead : l₀ ∈ sortById table := (hmem l₀).mpr (by simp)
    have hstart : (⟨l₀, .a⟩ : Placed) ∈ trueEnds (sortById table) :=
      mem_trueEnds.mpr ⟨hhead, (hleft.isTrueEnd_iff (fun _ => bounds_isTrueEnd) (by simp)).mpr rfl⟩
    have hdistinct := hnodup
    simp only [List.cons_append, List.map_cons, List.map_append, List.nodup_cons, List.mem_cons, List.mem_append,
      not_or] at hdistinct
    obtain ⟨⟨hl₀l₁, -, -, hl₀r₁, -⟩, ⟨-, -, hl₁r₁, -⟩, -⟩ := hdistinct
    have hmatch {c : HeardEntry} (hc : c ∈ l₀ :: l₁ :: ls ++ r₀ :: r₁ :: rs) (hid : l₀.id ≠ c.id)
        (hat : c.at .a = ⟨.held, 1, some .b⟩) : c ∈ stepMatches (sortById table) none ⟨l₀, .a⟩ [] .a := by
      refine mem_matchesOf.mpr ⟨(hmem c).mpr hc, ?_, ?_, ?_, rfl, rfl⟩
      · simpa using Ne.symm hid
      · rw [hat]; rfl
      · rw [hat]; rfl
    obtain ⟨fuel, hfuel⟩ := Nat.exists_eq_add_one.mpr (List.length_pos_of_mem hhead)
    obtain ⟨ids, hids⟩ := goOn_conflict (entries := sortById table) (current := none) (fuel := fuel)
      (placed := [⟨l₀, .a⟩]) (f := .a) (hmatch (by simp) hl₀l₁ hl₁) (hmatch (by simp) hl₀r₁ hr₁)
      fun heq => hl₁r₁ (congrArg HeardEntry.id heq)
    refine place_conflict hmarks (List.mem_map.mpr ⟨_, hstart, Eq.trans ?_ hids⟩)
    rw [walkFrom, hfuel]
    exact walkOn_held (congrArg Triple.state hfar) (congrArg Triple.facing hfar)

/-- Settles O46: a walk from each extremity that is heard, and what joins them. -/
theorem brokenTrainIsPlaced : Obligations.BrokenTrainIsPlaced := by
  refine ⟨?gap, ?fault⟩
  case gap =>
    intro left gap right table silent epoch own hmax hnodup haligned hgap hends hperm between found
    have hheard : (left ++ gap.filter (fun x => !silent x) ++ right).Sublist (left ++ gap ++ right) :=
      ((List.Sublist.refl left).append List.filter_sublist).append (List.Sublist.refl right)
    have hsorted := (sortById_perm table).trans hperm
    have hids := ((hsorted.map HeardEntry.id).nodup_iff).mpr (hnodup.sublist (hheard.map _))
    have hmarks : Unmarked table := fun ⟨x, hx, hmark⟩ =>
      haligned.unmarked x (hheard.subset (hperm.mem_iff.mp hx)) hmark
    have hparts := hnodup
    simp only [List.map_append, List.nodup_append, List.mem_append] at hparts
    obtain ⟨⟨-, -, hleftgap⟩, -, hright⟩ := hparts
    have hsilent (x : HeardEntry) (hx : gap.head? = some x ∨ gap.getLast? = some x) : x ∉ sortById table := by
      have hgapx : x ∈ gap := hx.elim List.mem_of_mem_head? List.mem_of_getLast?
      have hid := List.mem_map_of_mem (f := HeardEntry.id) hgapx
      rw [hsorted.mem_iff, List.mem_append, List.mem_append, List.mem_filter]
      rintro ((hl | ⟨-, hs⟩) | hr)
      · exact hleftgap _ (List.mem_map_of_mem hl) _ hid rfl
      · simp [hends x hx] at hs
      · exact hright _ (.inr hid) _ (List.mem_map_of_mem hr) rfl
    have hdisj (id : Identity) (hl : id ∈ left.map HeardEntry.id) : id ∉ right.map HeardEntry.id :=
      fun hr => hright id (.inl hl) id hr rfl
    have hwalks : TwoWalks (sortById table) none .a left right.reverse .gapStopped :=
      haligned.row.twoWalks_gap hids hnodup (fun x hx => hheard.subset (hsorted.mem_iff.mp hx))
        (fun x hx => hsorted.mem_iff.mpr (by simp [hx])) (fun x hx => hsorted.mem_iff.mpr (by simp [hx])) hgap hsilent
    have hreverse : (left ++ gap ++ right).reverse = right.reverse ++ gap.reverse ++ left.reverse := by simp
    refine ⟨haligned.row.place_gap hwalks hmarks hmax hgap hdisj, fun hown => ?back, fun hown => ?unplaced⟩
    case back =>
      have hback := hwalks.symm
      rw [← List.reverse_reverse left] at hback
      have hplaced := Row.place_gap (epoch := epoch) (own := own) (hreverse ▸ haligned.row.reverse) hback hmarks
        (by rwa [← hreverse, List.length_reverse]) (by simpa using hgap)
        (fun id hr hl => hdisj id (by simpa using hl) (by simpa using hr)) (by simpa using hown)
      rw [List.length_reverse, Ne, List.reverse_eq_nil_iff] at hplaced
      exact hplaced
    case unplaced =>
      have hgapid : own ∈ gap.map HeardEntry.id := (List.filter_sublist.map _).subset hown
      refine hwalks.place_unplaced hmarks (fun hl => hleftgap own hl own hgapid rfl) fun hr => ?_
      exact hright own (.inr hgapid) own (by simpa using hr) rfl
  case fault =>
    intro left right table epoch own _ hnodup hleft hright hne hne' hperm
    have hsorted := (sortById_perm table).trans hperm
    have hids := ((hsorted.map HeardEntry.id).nodup_iff).mpr hnodup
    have hmarks : Unmarked table := fun ⟨x, hx, hmark⟩ =>
      (List.mem_append.mp (hperm.mem_iff.mp hx)).elim (hleft.unmarked x · hmark) (hright.unmarked x · hmark)
    have hdisj (id : Identity) (hl : id ∈ left.map HeardEntry.id) : id ∉ right.map HeardEntry.id := fun hr => by
      rw [List.map_append, List.nodup_append] at hnodup
      obtain ⟨-, -, hapart⟩ := hnodup
      exact hapart id hl id hr rfl
    refine ⟨fun cur hcur hforward => ?_, place_fault_conflict hleft.row hright.row hnodup (fun x => hsorted.mem_iff)
      hmarks⟩
    have hwalks : TwoWalks (sortById table) (some cur) .a left right.reverse .faultStopped :=
      hleft.row.twoWalks_fault hright.row hids hnodup (fun x => hsorted.mem_iff) fun j r r' =>
        neighbours_of_roster hnodup hcur hforward
    constructor
    · intro hown
      rw [hwalks.place_fault hmarks hown (by simpa using hne') fun id hl hr => hdisj id hl (by simpa using hr),
        List.reverse_reverse, slotsFrom, slotsFrom, ← List.map_append]
      rfl
    · intro hown
      rw [hwalks.symm.place_fault hmarks (by simpa using hown) hne fun id hr hl => hdisj id hl (by simpa using hr),
        slotsFrom, slotsFrom, ← List.map_append, ← List.reverse_append]
      rfl

end Sys2Proof.Machine
end
